-- ==== Sys2Proof/Word.lean ====
section
/-! DEFINITION. The plain data types that the commands and the state share. -/

namespace Sys2Proof

/-- One byte, on the segment bus or on the host port. -/
abbrev Byte := BitVec 8

/-- A station's 64-bit identity, an identity pattern or a mask (spec/00_scope.md, Identities). -/
abbrev Identity := BitVec 64

/-- A 16-bit number that wraps: a generation (R6) or an incarnation. -/
abbrev Word16 := BitVec 16

/-- The index of a binding-table entry, 0..159. -/
abbrev Index := Fin 160

/-- The number of a negotiation context, 0..7 (R60). -/
abbrev CtxNum := Fin 8

/-- A service class, 0..7. -/
abbrev Cls := Fin 8

/-- A set of classes, bit n set for class n (R185). -/
abbrev ClassSet := BitVec 8

/-- A set of five change causes, as the byte of R186 without its always-clear bits 7..5. -/
abbrev CauseSet := BitVec 5

/-- The seven request kinds a station may send (spec/07, the table of kinds). -/
inductive ReqKind where
  | join | extend | agree | keep | leave | find | reply
  deriving DecidableEq, Repr, Inhabited

end Sys2Proof
end

