-- ==== Sys2Proof/Config.lean ====
section
/-! DEFINITION. What the part fixes (capacities, addresses, line constants) and the two free values. -/

namespace Sys2Proof

/-- The directory's own short address. -/
def Config.directory : Nat := 0

/-- The anonymous source 254, at which every station without an address listens. -/
def Config.anonymous : Nat := 254

/-- The highest short address an entry may hold (R14). -/
def Config.maxAddress : Nat := 239

/-- Capacity of the filter list (R44). -/
def Config.filterRules : Nat := 24

/-- Capacity of the deferral list (R53). -/
def Config.deferralRecords : Nat := 16

/-- Capacity of the inbound buffer (R123). -/
def Config.inboundRequests : Nat := 4

/-- Capacity of the answer queue (R125). -/
def Config.queueMessages : Nat := 16

/-- Capacity of the bus waiting list (R107). -/
def Config.busFinds : Nat := 2

/-- The most pages one exchange may take (R73). -/
def Config.maxPages : Nat := 6

/-- The value at which a counter stands still (R154). -/
def Config.counterCeiling : Nat := 65535

/-- The gap, in bit times (R128). -/
def Config.gapBits : Nat := 48

/-- The quiet time from which a rise of carrier is ignored, in bit times (R128). -/
def Config.commitBits : Nat := 36

/-- The jam, in bit times (R129). -/
def Config.jamBits : Nat := 16

/-- One backoff slot, in bit times (R130). -/
def Config.slotBits : Nat := 256

/-- The collisions at which the head is dropped (R130). -/
def Config.attemptLimit : Nat := 12

/-- Microseconds in the 10 ms unit of the short timers. -/
def Config.unit10ms : Nat := 10000

/-- Microseconds in the 50 ms unit of the tick period and segment silence. -/
def Config.unit50ms : Nat := 50000

/-- FREE VALUE (log entry 1): the part's own random draws for backoff (R130). The n-th draw made is
`Config.backoffDraw n` reduced to the range R130 gives; no value of it is known. -/
opaque Config.backoffDraw : Nat → Nat

/-- FREE VALUE (log entry 2): the request kind carried by a REFUSE that closes a context when no
request is being refused in that event. The spec states no value there. -/
opaque Config.closingKind : Nat → ReqKind

end Sys2Proof
end

