-- ==== Sys2Proof/Syntax.lean ====
section
/-! DEFINITION. The commands of the block: one constructor per row of spec/opcode_table.json. -/

namespace Sys2Proof

/-- The frame of one COMMAND transaction, as the port has it in hand at the release of select (R163):
the tag, the command code, the declared parameter length and the parameter bytes clocked in. -/
structure CommandFrame where
  tag    : Byte
  code   : Byte
  length : Byte
  params : List Byte
  deriving DecidableEq, Repr

/-- The block's commands. A directory command carries its COMMAND frame. A dispatched request carries
nothing: its message stands at the front of the inbound buffer (R124). An expiry names the entry or
the context whose time has run out. -/
inductive Instr where
  /-- COLD_RESET: power-up or the RESET input (R24). -/
  | coldReset
  /-- CONFIGURE (R148). A COMMAND whose code names no directory command is carried here too: R163's
  MALFORMED has no row of its own (log entry 3). -/
  | configure (f : CommandFrame)
  | readParameter (f : CommandFrame)
  | enable (f : CommandFrame)
  | disable (f : CommandFrame)
  | suspend (f : CommandFrame)
  | resume (f : CommandFrame)
  | filterPut (f : CommandFrame)
  | filterRemove (f : CommandFrame)
  | filterRead (f : CommandFrame)
  | addStatic (f : CommandFrame)
  | edit (f : CommandFrame)
  | revoke (f : CommandFrame)
  | confirmKeep (f : CommandFrame)
  | confirmEvict (f : CommandFrame)
  | readEntry (f : CommandFrame)
  | findAddress (f : CommandFrame)
  | lookup (f : CommandFrame)
  | readContext (f : CommandFrame)
  | readDeferrals (f : CommandFrame)
  | nextChange (f : CommandFrame)
  | readCounters (f : CommandFrame)
  | interruptSetup (f : CommandFrame)
  | flush (f : CommandFrame)
  | portRestart (f : CommandFrame)
  /-- RESULT, at its code byte (R165). -/
  | result
  /-- RESULT_RELEASE: select is released after `clocked` bytes of the reply were clocked out (R165). It
  is the release of any transaction taken at its code byte (log entry 10). -/
  | resultRelease (clocked : Nat)
  | status
  | abort
  /-- RECEIVE_MESSAGE: carrier falls after the whole bytes `bytes` and `extraBits` further bits (R120). -/
  | receiveMessage (bytes : List Byte) (extraBits : Nat)
  | join
  | extend
  | agree
  | reply
  | keep
  | leave
  | find
  | walkExamination
  | leaseTick
  | boundExpiry (i : Index)
  | lapsingExpiry (i : Index)
  | heldExpiry (i : Index)
  | legacySilenceExpiry (i : Index)
  | settleExpiry
  | pageTimerExpiry (c : CtxNum)
  | agreeTimerExpiry (c : CtxNum)
  | probeTimerExpiry (c : CtxNum)
  | silenceTimerExpiry
  | attemptBegin
  | carrierRise
  | attemptSent
  | collisionSignal
  | jamEnd
  | backoffEnd
  deriving DecidableEq, Repr

end Sys2Proof
end

