-- ==== Sys2Proof/Decode.lean ====
section
/-! DEFINITION. The commands that words spell. The opcode table gives no row any bits, so no word of it
spells a command; what a host's COMMAND transaction spells is read from its bytes (R163, R186). -/

namespace Sys2Proof

/-- No row of spec/opcode_table.json has bits. -/
def decodeTableWord (_nbits _w : Nat) : Option Instr := none

/-- The directory command of a frame, by its code (R186). CONFIRM's action byte tells its two rows
apart, and a CONFIRM of any other action, which is refused RANGE, is read as the row of KEEP. A code
that names no directory command is carried by the row of CONFIGURE (log entry 3). -/
def decodeFrame (f : CommandFrame) : Instr :=
  match f.code.toNat with
  | 0x02 => .readParameter f
  | 0x03 => .enable f
  | 0x04 => .disable f
  | 0x05 => .suspend f
  | 0x06 => .resume f
  | 0x07 => .filterPut f
  | 0x08 => .filterRemove f
  | 0x09 => .filterRead f
  | 0x0A => .addStatic f
  | 0x0B => .edit f
  | 0x0C => .revoke f
  | 0x0D => if f.params.getD 3 0 = 1 then .confirmEvict f else .confirmKeep f
  | 0x0E => .readEntry f
  | 0x0F => .findAddress f
  | 0x10 => .lookup f
  | 0x11 => .readContext f
  | 0x12 => .readDeferrals f
  | 0x13 => .nextChange f
  | 0x14 => .readCounters f
  | 0x15 => .interruptSetup f
  | 0x16 => .flush f
  | 0x17 => .portRestart f
  | _ => .configure f

/-- The command that a host transaction's bytes spell at the event in which it is taken (R161), from
the code byte on. A transaction whose code names none of the four, and a COMMAND that ends before its
tag, code and length bytes, is discarded and spells none. -/
def decodeTransaction : List Byte → Option Instr
  | [] => none
  | code :: rest =>
    match code.toNat, rest with
    | 1, tag :: command :: length :: params => some (decodeFrame ⟨tag, command, length, params⟩)
    | 2, _ => some .result
    | 3, _ => some .status
    | 4, _ => some .abort
    | _, _ => none

end Sys2Proof
end

