-- ==== Sys2Proof/Machine/State.lean ====
section
/-! DEFINITION. The state of the block as plain data, one structure per block of spec/00_scope.md. -/

namespace Sys2Proof.Machine

/-! ### The binding table -/

/-- The five states of an entry (R2). -/
inductive EntryState where
  | free | reserved | bound | lapsing | held
  deriving DecidableEq, Repr

/-- The four origins of an occupied entry (R3). -/
inductive Origin where
  | negotiated | adopted | static | legacy
  deriving DecidableEq, Repr

/-- How the binding of a HELD entry ended (R12). -/
inductive HeldCause where
  | expired | left | revoked | evicted
  deriving DecidableEq, Repr

/-- The dispute set of an entry (R5). The empty set is the absent field. -/
structure Dispute where
  duplicate : Bool
  collision : Bool
  deriving DecidableEq, Repr

/-- Class, window and groups, which R1 makes present together. -/
structure Terms where
  cls    : Cls
  window : Nat
  groups : List Nat
  deriving DecidableEq, Repr

/-- The holder whose live binding the present one superseded when its probe ran out of tries (R103): its
incarnation, and whether its late REPLY has come since (log entry 27). -/
structure Superseded where
  holder : Word16
  late   : Bool
  deriving DecidableEq, Repr

/-- One entry of the table (R1). An absent field is `none`. The last field is the model's own (log
entry 27): a reservation, a binding made anew and a FREE entry start without it. -/
structure Entry where
  state       : EntryState
  origin      : Option Origin
  generation  : Word16
  identity    : Option Identity
  incarnation : Option Word16
  address     : Option Nat
  terms       : Option Terms
  label       : Option (List Byte)
  lease       : Option Nat
  remaining   : Option Nat
  heldCause   : Option HeldCause
  dispute     : Dispute
  superseded  : Option Superseded := none
  deriving DecidableEq, Repr

/-- A FREE entry of a given generation: it shows its state and generation and nothing else (R1). -/
def Entry.freeAt (g : Word16) : Entry :=
  { state := .free, origin := none, generation := g, identity := none, incarnation := none,
    address := none, terms := none, label := none, lease := none, remaining := none,
    heldCause := none, dispute := ⟨false, false⟩ }

/-- The binding table's 160 entries. The address map of R14 and the identities held (R15) are read
from them: an entry holds its address and its identity in every occupied state. -/
structure BindingTable where
  entries : Vector Entry 160
  deriving DecidableEq, Repr

/-! ### The lease unit -/

/-- The lease clock (R25) and the count-downs it has handed out (R26). -/
structure LeaseUnit where
  /-- The time of the next tick; `none` while the clock is stopped. -/
  nextTick : Option Nat
  /-- For each entry, the count-downs handed to it and not yet taken (R26). -/
  owed : Vector Nat 160
  deriving DecidableEq, Repr

/-! ### The admission unit -/

/-- A filter rule's verdict (R44). -/
inductive Verdict where
  | admits | refuse | admitCapped
  deriving DecidableEq, Repr

/-- One filter rule (R44). -/
structure FilterRule where
  pattern  : Identity
  mask     : Identity
  verdict  : Verdict
  classCap : Option ClassSet
  leaseCap : Option Nat
  deriving DecidableEq, Repr

/-- One record of the deferral list (R53). -/
structure Deferral where
  identity : Identity
  count    : Nat
  deriving DecidableEq, Repr

/-- The filter list, by position, and the deferral list, front first. -/
structure AdmissionUnit where
  filter    : List FilterRule
  deferrals : List Deferral
  deriving DecidableEq, Repr

/-! ### The join unit -/

/-- The probe timer of a CHECKING context: not yet started while the context awaits the completion of
a CHECK (which one, `token` tells, R95), or running. -/
inductive ProbeTimer where
  | awaiting (token : Nat)
  | running (deadline : Nat)
  deriving DecidableEq, Repr

/-- What an OFFERED context records (R60, R79). -/
structure Offer where
  entry    : Index
  cls      : Cls
  address  : Nat
  window   : Nat
  lease    : Nat
  turn     : Nat
  deadline : Nat
  deriving DecidableEq, Repr

/-- The states of a context other than IDLE, each with the fields present in it alone (R60, R61). -/
inductive Stage where
  | collecting (pageDeadline : Nat)
  | checking (triesUsed : Nat) (timer : ProbeTimer)
  | offered (offer : Offer)
  deriving DecidableEq, Repr

/-- One exchange under way: the record of a context that is not IDLE (R60). -/
structure Exchange where
  identity       : Identity
  incarnation    : Word16
  classSet       : ClassSet
  requestedLease : Nat
  hint           : Nat
  lastTurn       : Nat
  pagesTaken     : Nat
  groupsPage     : Option (List Nat)
  windowRequest  : Option Nat
  label          : Option (List Byte)
  classCap       : ClassSet
  leaseCap       : Option Nat
  target         : Option Index
  probeNeeded    : Bool
  stage          : Stage
  deriving DecidableEq, Repr

/-- The eight contexts, IDLE where `none`; the count of CHECKs handed over so far, from which each CHECK
takes its token. -/
structure JoinUnit where
  contexts  : Vector (Option Exchange) 8
  nextToken : Nat
  deriving DecidableEq, Repr

/-! ### The lookup unit -/

/-- One bus FIND, waiting or being walked (R107). Group 255 is any group. -/
structure FindRequest where
  source  : Nat
  pattern : Identity
  mask    : Identity
  group   : Nat
  cursor  : Index
  deriving DecidableEq, Repr

/-- The host's LOOKUP, waiting or being walked (R114). Group 255 is any group. -/
structure LookupRequest where
  pattern         : Identity
  mask            : Identity
  group           : Nat
  cursor          : Index
  liveOnly        : Bool
  excludeDisputed : Bool
  deriving DecidableEq, Repr

/-- One record of a FOUND (R111). -/
structure FoundRecord where
  identity   : Identity
  address    : Nat
  cls        : Cls
  generation : Word16
  deriving DecidableEq, Repr

/-- One record of a LOOKUP result (R115). -/
structure LookupRecord where
  index      : Index
  state      : EntryState
  origin     : Option Origin
  identity   : Option Identity
  address    : Nat
  generation : Word16
  dispute    : Dispute
  deriving DecidableEq, Repr

/-- The walk in progress: its asker and criteria, the next index and the records matched (R107). -/
inductive Walk where
  | bus (request : FindRequest) (next : Index) (found : List FoundRecord)
  | host (request : LookupRequest) (next : Index) (found : List LookupRecord)
  deriving DecidableEq, Repr

/-- The two kinds of asker. -/
inductive Asker where
  | bus | host
  deriving DecidableEq, Repr

/-- The lookup unit (R107). -/
structure LookupUnit where
  walk        : Option Walk
  busWaiting  : List FindRequest
  hostSlot    : Option LookupRequest
  lastStarted : Asker
  deriving DecidableEq, Repr

/-! ### Phase control -/

/-- The part-wide phase (R137). -/
inductive Phase where
  | offline | settling | active | suspended
  deriving DecidableEq, Repr

/-- The parameter store (R147). -/
structure Params where
  busRate        : Nat
  grantLow       : Nat
  grantHigh      : Nat
  offered        : ClassSet
  priority       : List Nat
  tickPeriod     : Nat
  minLease       : Nat
  maxLease       : Nat
  defaultLease   : Nat
  grace          : Nat
  hold           : Nat
  settle         : Nat
  legacyLearning : Bool
  legacySilence  : Nat
  adoption       : Bool
  defaultAdmit   : Bool
  pageTimeout    : Nat
  agreeTimeout   : Nat
  probeTimeout   : Nat
  probeTries     : Nat
  answerLifetime : Nat
  holdoffUnit    : Nat
  segmentSilence : Nat
  windowCap      : Vector Nat 8
  deriving DecidableEq, Repr

/-- Phase, settle timer (`none` when stopped) and parameters (R137, R147). -/
structure PhaseControl where
  phase      : Phase
  settle     : Option Nat
  /-- The tick that brings the settle timer to 0 has fallen and its settle expiry is not yet taken. -/
  settleOwed : Bool
  params     : Params
  deriving DecidableEq, Repr

/-! ### The change unit -/

/-- Cause sets, counters, enables and the latched-low flag (R150 to R159). -/
structure ChangeUnit where
  entryCauses : Vector CauseSet 160
  partCauses  : CauseSet
  counters    : Vector Nat 12
  master      : Bool
  entryEnable : CauseSet
  partEnable  : CauseSet
  latchedLow  : Bool
  deriving DecidableEq, Repr

/-! ### The segment port -/

/-- The sixteen REFUSE reasons (spec/12, reason codes). -/
inductive Reason where
  | admission | suspended | tableFull | noAddress | noClass | duplicate | malformed | sequence
  | pages | timeout | unknown | expired | notYours | rejoin | revoked | retry
  deriving DecidableEq, Repr

/-- The two reasons of a REVOKED notice. -/
inductive RevokeReason where
  | host | evicted
  deriving DecidableEq, Repr

/-- The ten answer kinds with their payload fields (spec/12.2). -/
inductive Answer where
  | noted (identity : Identity) (turn : Nat)
  | terms (identity : Identity) (turn : Nat) (cls : Cls) (address window lease tick : Nat)
  | grant (identity : Identity) (address : Nat) (cls : Cls) (window lease tick : Nat)
      (generation : Word16)
  | kept (identity : Identity) (lease : Nat) (generation : Word16)
  | closed (identity : Identity)
  | holdoff (identity : Identity) (exponent unit : Nat)
  | refuse (identity : Identity) (kind : ReqKind) (reason : Reason)
  | found (cursor : Nat) (records : List FoundRecord)
  | check (identity : Identity)
  | revoked (identity : Identity) (reason : RevokeReason)
  deriving DecidableEq, Repr

/-- A party to be told of a message's completion (R125): a context, for the CHECK of a token, or the
command engine. -/
inductive Waiter where
  | context (c : CtxNum) (token : Nat)
  | engine
  deriving DecidableEq, Repr

/-- One message of the answer queue (R125). -/
structure QueuedMessage where
  destination : Nat
  answer      : Answer
  produced    : Nat
  collisions  : Nat
  waiters     : List Waiter
  deriving DecidableEq, Repr

/-- One buffered request: the whole message (R123). -/
structure Request where
  source  : Nat
  bound   : Bool
  kind    : ReqKind
  payload : List Byte
  deriving DecidableEq, Repr

/-- The five transmitter states (spec/07.4) with the times they need. -/
inductive Transmitter where
  | idle
  /-- `committed` is the time at which the attempt begins although carrier has risen (R128). -/
  | deferring (committed : Option Nat)
  | sending (start : Nat)
  | jamming (stop : Nat)
  | backingOff (stop : Nat)
  deriving DecidableEq, Repr

/-- The segment port (R120 to R136). -/
structure SegmentPort where
  inbound      : List Request
  queue        : List QueuedMessage
  tx           : Transmitter
  /-- The attempt under way survived DISABLE or PORT-RESTART (R134): its head leaves without retry. -/
  surviving    : Bool
  /-- Carrier of other stations is present. -/
  carrier      : Bool
  /-- The carrier period in progress overlaps one of the part's own attempts (R120). -/
  overlapped   : Bool
  /-- When carrier last fell, or reset ended (R128). -/
  quietFrom    : Nat
  /-- Bit times of quiet already counted before `quietFrom`, at an earlier bus rate (R133). -/
  quietCarried : Nat
  alive        : Bool
  /-- When the silence timer runs out; `none` while it is stopped (R132). -/
  silence      : Option Nat
  deriving DecidableEq, Repr

/-! ### The host port and command engine -/

/-- The result statuses (R168). NONE is never a record's status and is not among them. -/
inductive Status where
  | ok | phase | range | stale | noEntry | notLive | addressInUse | identityInUse | tableFull
  | listFull | aborted | malformed
  deriving DecidableEq, Repr

/-- What an EXECUTING command waits for (R164). -/
inductive Work where
  /-- Nothing: the command completes in the event in which it is taken. -/
  | atOnce
  /-- The end of the attempt that survived DISABLE or PORT-RESTART. -/
  | attemptEnd
  /-- The end of its walk. -/
  | walk
  /-- The completion of its notice; the result carries this index and generation. -/
  | notice (index : Index) (generation : Word16)
  deriving DecidableEq, Repr

/-- The command record (R162), with what it waits for. -/
structure CommandRecord where
  tag    : Byte
  code   : Byte
  params : List Byte
  work   : Work
  deriving DecidableEq, Repr

/-- The result record (R162). Its length is the number of its data bytes. -/
structure ResultRecord where
  tag    : Byte
  status : Status
  data   : List Byte
  deriving DecidableEq, Repr

/-- The engine's state with the record each state holds (R162). -/
inductive Engine where
  | idle
  | executing (command : CommandRecord)
  | done (result : ResultRecord)
  deriving DecidableEq, Repr

/-- The host transaction in progress, with the reply the port sends back (R161); `none` between
transactions and while a COMMAND's frame comes in. -/
inductive Transaction where
  | none
  /-- RESULT between its two events: the reply bytes, and whether they are the result record. -/
  | result (reply : List Byte) (isRecord : Bool)
  | status (reply : Byte)
  /-- ABORT: filler only. -/
  | filler
  /-- Abandoned by a cold reset; the port takes no transaction until select is released. -/
  | abandoned
  deriving DecidableEq, Repr

/-- The host port and the command engine (R161, R162). -/
structure HostPort where
  engine      : Engine
  rejected    : Bool
  resultLost  : Bool
  transaction : Transaction
  deriving DecidableEq, Repr

/-! ### The whole state -/

/-- The block's whole state. `now` is the model's clock in microseconds; `freeUsed` counts the free
values drawn so far; `pending` is the queue of commands waiting, first in first out. -/
structure State where
  table     : BindingTable
  lease     : LeaseUnit
  admission : AdmissionUnit
  join      : JoinUnit
  lookup    : LookupUnit
  phase     : PhaseControl
  change    : ChangeUnit
  port      : SegmentPort
  host      : HostPort
  now       : Nat
  freeUsed  : Nat
  pending   : List Instr
  deriving DecidableEq, Repr

/-- No command of this block stops with a fault: the spec gives every one of its commands an effect, or
says that the event does not happen. -/
inductive Fault where
  deriving DecidableEq, Repr

/-- The refusals of the model. -/
inductive Refusal where
  /-- Raised by `exec` alone, for a command that has no meaning yet: safe. No arm of this model
  raises it. -/
  | notModelled (mnemonic : String)
  deriving DecidableEq, Repr

/-- The default parameters (R147). -/
def Params.default : Params :=
  { busRate := 250, grantLow := 1, grantHigh := 200, offered := 0xFF,
    priority := [7, 6, 5, 4, 3, 2, 1, 0], tickPeriod := 20, minLease := 10, maxLease := 600,
    defaultLease := 120, grace := 10, hold := 60, settle := 30, legacyLearning := true,
    legacySilence := 300, adoption := true, defaultAdmit := true, pageTimeout := 20,
    agreeTimeout := 50, probeTimeout := 10, probeTries := 3, answerLifetime := 100,
    holdoffUnit := 5, segmentSilence := 40, windowCap := Vector.replicate 8 16 }

/-- The block right after cold reset (R24, R43, R59, R84, R119, R136, R137, R147, R160, R169). -/
def State.reset : State :=
  { table := { entries := Vector.replicate 160 (Entry.freeAt 0) }
    lease := { nextTick := none, owed := Vector.replicate 160 0 }
    admission := { filter := [], deferrals := [] }
    join := { contexts := Vector.replicate 8 none, nextToken := 0 }
    lookup := { walk := none, busWaiting := [], hostSlot := none, lastStarted := .host }
    phase := { phase := .offline, settle := none, settleOwed := false, params := Params.default }
    change :=
      { entryCauses := Vector.replicate 160 0, partCauses := 0, counters := Vector.replicate 12 0,
        master := false, entryEnable := 0, partEnable := 0, latchedLow := true }
    port :=
      { inbound := [], queue := [], tx := .idle, surviving := false, carrier := false,
        overlapped := false, quietFrom := 0, quietCarried := 0, alive := false, silence := none }
    host := { engine := .idle, rejected := false, resultLost := false, transaction := .none }
    now := 0
    freeUsed := 0
    pending := [] }

end Sys2Proof.Machine
end

