-- ==== Sys2Proof/Machine/Flags.lean ====
section
/-! DEFINITION. Change causes, counters, the interrupt and the segment-alive view (spec/09). -/

namespace Sys2Proof.Machine

/-! ### Entry causes (R150), with the bits of R186 -/

/-- CREATED: the entry is taken out of FREE. -/
def causeCreated : CauseSet := 1

/-- STATE: from one occupied state to another. -/
def causeState : CauseSet := 2

/-- TERMS: a reserve, an adoption, or an EDIT that carries a setting. -/
def causeTerms : CauseSet := 4

/-- DISPUTE: a reason absent from the dispute is added. -/
def causeDispute : CauseSet := 8

/-- RELEASED: the entry becomes FREE. -/
def causeReleased : CauseSet := 16

/-! ### Part causes (R152), with the bits of R186 -/

/-- PHASE. -/
def partPhase : CauseSet := 1

/-- TABLE_FULL. -/
def partTableFull : CauseSet := 2

/-- COUNTER_SATURATED. -/
def partSaturated : CauseSet := 4

/-- SEGMENT_SILENT. -/
def partSilent : CauseSet := 8

/-- QUEUE_DROP. -/
def partQueueDrop : CauseSet := 16

/-- Sets part causes; a cause already pending stays pending once (R152). -/
def setPart (c : CauseSet) (s : State) : State :=
  { s with change.partCauses := s.change.partCauses ||| c }

/-! ### Counters (R154) -/

/-- The twelve counters, in the order of R154. -/
inductive Counter where
  | joins | grants | refusals | holdoffs | renewals | lapses | duplicates | collisions | strays
  | inboundDrops | answerDrops | badMessages
  deriving DecidableEq, Repr

/-- A counter's place in the order of R154. -/
def Counter.slot : Counter → Fin 12
  | .joins => 0 | .grants => 1 | .refusals => 2 | .holdoffs => 3 | .renewals => 4 | .lapses => 5
  | .duplicates => 6 | .collisions => 7 | .strays => 8 | .inboundDrops => 9 | .answerDrops => 10
  | .badMessages => 11

/-- A counter's value. -/
def counter (s : State) (c : Counter) : Nat := s.change.counters[c.slot]

/-- One increment (R154): a counter at 65535 stays there, and the increment that brings it to 65535
sets COUNTER_SATURATED in the same event. -/
def count (c : Counter) (s : State) : State :=
  if Config.counterCeiling ≤ counter s c then s
  else
    let s' := { s with change.counters := s.change.counters.set c.slot (counter s c + 1) }
    if counter s c + 1 = Config.counterCeiling then setPart partSaturated s' else s'

/-! ### The interrupt (R158) -/

/-- The interrupt condition: an enabled cause of some entry, or an enabled part cause, is pending. -/
def interruptCondition (s : State) : Bool :=
  (List.finRange 160).any (fun i => s.change.entryCauses[i] &&& s.change.entryEnable != 0)
    || (s.change.partCauses &&& s.change.partEnable != 0)

/-- The interrupt output, a level: asserted while the master enable is on and the condition holds. -/
def interruptAsserted (s : State) : Bool := s.change.master && interruptCondition s

/-- The level of the HIRQ pin, active low (spec/12.4). -/
def hirqLevel (s : State) : Bool := !interruptAsserted s

/-! ### The segment-alive view (R159) -/

/-- The latched view that STATUS reports: 0 when the latched-low flag is set or alive is 0. -/
def aliveView (s : State) : Bool := !s.change.latchedLow && s.port.alive

/-! ### The status word (R166, R186) -/

/-- The phase's code in the status word and in the phase commands' data. -/
def Phase.code : Phase → Nat
  | .offline => 0 | .settling => 1 | .active => 2 | .suspended => 3

/-- The engine state's code in the status word. -/
def Engine.code : Engine → Nat
  | .idle => 0 | .executing _ => 1 | .done _ => 2

/-- A flag as the value of its bit. -/
def flagBit (b : Bool) (weight : Nat) : Nat := if b then weight else 0

/-- The status word: phase in bits 1..0, engine in 3..2, interrupt pending 4, segment alive 5,
REJECTED 6, RESULT_LOST 7. Interrupt pending disregards the master enable. -/
def statusWord (s : State) : Byte :=
  BitVec.ofNat 8
    (s.phase.phase.code + 4 * s.host.engine.code + flagBit (interruptCondition s) 16
      + flagBit (aliveView s) 32 + flagBit s.host.rejected 64 + flagBit s.host.resultLost 128)

end Sys2Proof.Machine
end

