-- ==== Sys2Proof/Machine/Operands.lean ====
section
/-! DEFINITION. Byte layouts (spec/12): reading request payloads and command parameters, the check,
building answer frames and the records of host results. -/

namespace Sys2Proof.Machine

/-! ### Numbers in bytes, most significant byte first -/

/-- The number that a list of bytes spells. -/
def beNat (bytes : List Byte) : Nat := bytes.foldl (fun n b => n * 256 + b.toNat) 0

/-- The n bytes that spell a number. -/
def beBytes : Nat → Nat → List Byte
  | 0, _ => []
  | n + 1, v => BitVec.ofNat 8 (v / 256 ^ n) :: beBytes n v

/-- The byte at a position, 0 beyond the end. -/
def byteAt (bytes : List Byte) (k : Nat) : Byte := bytes.getD k 0

/-- The number in `n` bytes from a position. -/
def natAt (bytes : List Byte) (k n : Nat) : Nat := beNat ((bytes.drop k).take n)

/-- The identity, pattern or mask at a position. -/
def identityAt (bytes : List Byte) (k : Nat) : Identity := BitVec.ofNat 64 (natAt bytes k 8)

/-- The 16-bit number at a position. -/
def word16At (bytes : List Byte) (k : Nat) : Word16 := BitVec.ofNat 16 (natAt bytes k 2)

/-- A flag byte is clear when 0 and set for any other value (R185). -/
def flagAt (bytes : List Byte) (k : Nat) : Bool := byteAt bytes k != 0

/-- An identity's eight bytes. -/
def identityBytes (x : Identity) : List Byte := beBytes 8 x.toNat

/-- A 16-bit number's two bytes. -/
def word16Bytes (x : Word16) : List Byte := beBytes 2 x.toNat

/-- A number in one byte. -/
def oneByte (n : Nat) : Byte := BitVec.ofNat 8 n

/-- The class a byte names; every caller has tested that the byte is at most 7. -/
def classOf (b : Byte) : Cls := Fin.ofNat 8 b.toNat

/-! ### Request payloads (spec/12.2) -/

/-- The code of a request kind. -/
def requestCode : ReqKind → Nat
  | .join => 1 | .extend => 2 | .agree => 3 | .keep => 4 | .leave => 5 | .find => 6 | .reply => 7

/-- The request kind of a code, none for the answer kinds. -/
def requestOfCode : Nat → Option ReqKind
  | 1 => some .join | 2 => some .extend | 3 => some .agree | 4 => some .keep | 5 => some .leave
  | 6 => some .find | 7 => some .reply | _ => none

/-- The identity an answer carries back: the payload's first eight bytes, or identity zero when the
payload is shorter (R64, R122). -/
def payloadIdentity (p : List Byte) : Identity := if 8 ≤ p.length then identityAt p 0 else 0

/-- Groups on the bus or in a command: each 0..13, none twice. -/
def groupsValid (g : List Nat) : Bool := g.all (· ≤ 13) && decide g.Nodup

/-- Characters of a label: each 20h..7Eh. -/
def charsValid (c : List Byte) : Bool := c.all (fun b => 0x20 ≤ b.toNat && b.toNat ≤ 0x7E)

/-- A JOIN (15 bytes). -/
structure JoinFields where
  identity    : Identity
  incarnation : Word16
  classSet    : ClassSet
  lease       : Nat
  hint        : Nat
  more        : Bool
  deriving DecidableEq, Repr

/-- Reads a JOIN's payload. A lease above 4095 is recorded as 4095 (R185). -/
def readJoin (p : List Byte) : JoinFields :=
  { identity := payloadIdentity p, incarnation := word16At p 8, classSet := byteAt p 10,
    lease := min (natAt p 11 2) 4095, hint := (byteAt p 13).toNat,
    more := (byteAt p 14).getLsbD 0 }

/-- Check 2 of a JOIN (R64): length 15, a nonempty class set, a hint of at most 239. -/
def joinContentOk (p : List Byte) : Bool :=
  p.length == 15 && byteAt p 10 != 0 && decide ((byteAt p 13).toNat ≤ Config.maxAddress)

/-- A page that keeps its kind's rules (R72). -/
inductive Page where
  | groups (g : List Nat)
  | window (w : Nat)
  | label (c : List Byte)
  deriving DecidableEq, Repr

/-- The page of an EXTEND, or none for a bad page: an unknown kind, a content that breaks its kind's
rules, or a payload that is not 12 bytes longer than its page length (R72, R185). -/
def readPage (p : List Byte) : Option Page :=
  let len := (byteAt p 11).toNat
  let body := p.drop 12
  if p.length ≠ 12 + len then none
  else
    match (byteAt p 10).toNat with
    | 1 =>
      let g := body.map BitVec.toNat
      if len ≤ 4 && groupsValid g then some (.groups g) else none
    | 2 =>
      let w := (byteAt p 12).toNat
      if len = 1 ∧ 1 ≤ w ∧ w ≤ 64 then some (.window w) else none
    | 3 => if 1 ≤ len ∧ len ≤ 12 ∧ charsValid body then some (.label body) else none
    | _ => none

/-- A KEEP (15..19 bytes). -/
structure KeepFields where
  identity    : Identity
  incarnation : Word16
  cls         : Cls
  window      : Nat
  lease       : Nat
  groups      : List Nat
  deriving DecidableEq, Repr

/-- Reads a KEEP's payload, whose content the port has tested (R122). -/
def readKeep (p : List Byte) : KeepFields :=
  { identity := payloadIdentity p, incarnation := word16At p 8, cls := classOf (byteAt p 10),
    window := (byteAt p 11).toNat, lease := natAt p 12 2, groups := (p.drop 15).map BitVec.toNat }

/-- The content test of a KEEP (R122). -/
def keepContentOk (p : List Byte) : Bool :=
  let n := (byteAt p 14).toNat
  let w := (byteAt p 11).toNat
  decide (n ≤ 4) && p.length == 15 + n && decide ((byteAt p 10).toNat ≤ 7)
    && decide (1 ≤ w ∧ w ≤ 64) && decide (natAt p 12 2 ≤ 4095)
    && groupsValid ((p.drop 15).map BitVec.toNat)

/-- A group byte that names a group or any group: 0..13 or 255 (R108, R114). -/
def groupByteOk (g : Nat) : Bool := decide (g ≤ 13) || g == 255

/-- The content test of a FIND (R122). -/
def findContentOk (p : List Byte) : Bool :=
  p.length == 18 && groupByteOk (byteAt p 16).toNat && decide ((byteAt p 17).toNat ≤ 159)

/-- Reads a FIND, whose content the port has tested. -/
def readFind (source : Nat) (p : List Byte) : FindRequest :=
  { source := source, pattern := identityAt p 0, mask := identityAt p 8,
    group := (byteAt p 16).toNat, cursor := Fin.ofNat 160 (byteAt p 17).toNat }

/-- The port's content test of a request addressed to the directory; JOIN, EXTEND and AGREE are not
tested here (R122). -/
def contentOk : ReqKind → List Byte → Bool
  | .keep, p => keepContentOk p
  | .leave, p => p.length == 10
  | .reply, p => p.length == 10
  | .find, p => findContentOk p
  | .join, _ => true
  | .extend, _ => true
  | .agree, _ => true

/-- The identity in the port's REFUSE(MALFORMED): always identity zero for a FIND (R108, R122). -/
def malformedIdentity : ReqKind → List Byte → Identity
  | .find, _ => 0
  | _, p => payloadIdentity p

/-! ### The check and the frame (R185) -/

/-- One bit of the check: the register shifts left, and a 1 that leaves it folds in 1021h. -/
def crcShift (r : BitVec 16) : BitVec 16 :=
  if r.msb then (r <<< 1) ^^^ 0x1021#16 else r <<< 1

/-- One byte fed most significant bit first. -/
def crcByte (r : BitVec 16) (b : Byte) : BitVec 16 :=
  let x := r ^^^ (b.setWidth 16 <<< 8)
  crcShift (crcShift (crcShift (crcShift (crcShift (crcShift (crcShift (crcShift x)))))))

/-- The register after a string of bytes, preset to FFFFh. -/
def crc (bytes : List Byte) : BitVec 16 := bytes.foldl crcByte 0xFFFF#16

/-- The two check bytes, high byte first. -/
def checkBytes (r : BitVec 16) : List Byte := [(r >>> 8).setWidth 8, r.setWidth 8]

/-- The code of an answer kind. -/
def Answer.code : Answer → Nat
  | .noted .. => 8 | .terms .. => 9 | .grant .. => 10 | .kept .. => 11 | .closed .. => 12
  | .holdoff .. => 13 | .refuse .. => 14 | .found .. => 15 | .check .. => 16 | .revoked .. => 17

/-- The code of a REFUSE reason. -/
def Reason.code : Reason → Nat
  | .admission => 1 | .suspended => 2 | .tableFull => 3 | .noAddress => 4 | .noClass => 5
  | .duplicate => 6 | .malformed => 7 | .sequence => 8 | .pages => 9 | .timeout => 10
  | .unknown => 11 | .expired => 12 | .notYours => 13 | .rejoin => 14 | .revoked => 15
  | .retry => 16

/-- The code of a REVOKED reason. -/
def RevokeReason.code : RevokeReason → Nat
  | .host => 1 | .evicted => 2

/-- The twelve bytes of a FOUND record. -/
def FoundRecord.bytes (r : FoundRecord) : List Byte :=
  identityBytes r.identity ++ [oneByte r.address, oneByte r.cls.val] ++ word16Bytes r.generation

/-- An answer's payload (spec/12.2). -/
def Answer.payload : Answer → List Byte
  | .noted id turn => identityBytes id ++ [oneByte turn]
  | .terms id turn c a w l t =>
    identityBytes id ++ [oneByte turn, oneByte c.val, oneByte a, oneByte w] ++ beBytes 2 l
      ++ [oneByte t]
  | .grant id a c w l t g =>
    identityBytes id ++ [oneByte a, oneByte c.val, oneByte w] ++ beBytes 2 l ++ [oneByte t]
      ++ word16Bytes g
  | .kept id l g => identityBytes id ++ beBytes 2 l ++ word16Bytes g
  | .closed id => identityBytes id
  | .holdoff id e u => identityBytes id ++ [oneByte e, oneByte u]
  | .refuse id k r => identityBytes id ++ [oneByte (requestCode k), oneByte r.code]
  | .found cursor records =>
    [oneByte cursor, oneByte records.length] ++ (records.map FoundRecord.bytes).flatten
  | .check id => identityBytes id
  | .revoked id r => identityBytes id ++ [oneByte r.code]

/-- The frame from its destination through its payload. -/
def frameBody (destination : Nat) (a : Answer) : List Byte :=
  [oneByte destination, oneByte Config.directory, oneByte a.code, oneByte a.payload.length]
    ++ a.payload

/-- The whole frame the part sends: source 0, bound flag and bits 6..5 clear, and its check (R185). -/
def frameBytes (destination : Nat) (a : Answer) : List Byte :=
  frameBody destination a ++ checkBytes (crc (frameBody destination a))

/-- The bits a frame takes on the line. -/
def frameBits (destination : Nat) (a : Answer) : Nat := 8 * (frameBytes destination a).length

/-- A message heard on the line whose frame passes (R120). -/
structure Heard where
  destination : Nat
  source      : Nat
  bound       : Bool
  kind        : Nat
  payload     : List Byte
  deriving DecidableEq, Repr

/-- The frame test of R120: none for a frame error. Control bits 6..5 are not tested (R185). -/
def readFrame (bytes : List Byte) (extraBits : Nat) : Option Heard :=
  let len := (byteAt bytes 3).toNat
  let control := byteAt bytes 2
  let kind := control.toNat % 32
  if bytes.length < 6 ∨ extraBits ≠ 0 ∨ 60 < len ∨ bytes.length ≠ len + 6 ∨ crc bytes ≠ 0
      ∨ kind = 0 ∨ 17 < kind then none
  else
    some { destination := (byteAt bytes 0).toNat, source := (byteAt bytes 1).toNat,
           bound := control.getLsbD 7, kind := kind, payload := (bytes.drop 4).take len }

/-! ### Codes of entry records (R186) -/

/-- The state code. -/
def EntryState.code : EntryState → Nat
  | .free => 0 | .reserved => 1 | .bound => 2 | .lapsing => 3 | .held => 4

/-- The origin code, 0 when absent. -/
def originCode : Option Origin → Nat
  | none => 0 | some .negotiated => 1 | some .adopted => 2 | some .static => 3 | some .legacy => 4

/-- The held-cause code, 0 when absent. -/
def heldCode : Option HeldCause → Nat
  | none => 0 | some .expired => 1 | some .left => 2 | some .revoked => 3 | some .evicted => 4

/-- A flag as the value of a bit of a record. -/
def bitValue (b : Bool) (weight : Nat) : Nat := if b then weight else 0

/-- The dispute byte: bit 0 DUPLICATE_IDENTITY, bit 1 ADDRESS_COLLISION. -/
def Dispute.code (d : Dispute) : Nat := bitValue d.duplicate 1 + bitValue d.collision 2

/-- A list of bytes filled with zeros to a length, or cut to it. -/
def padTo (n : Nat) (bytes : List Byte) : List Byte := (bytes ++ List.replicate n 0).take n

/-- A groups field of a record: a count, then four bytes. The bytes beyond the count, which the spec has
ignored in parameters and says nothing of in data, are returned as zeros: the model's choice (log
entry 30). -/
def groupsField : Option (List Nat) → List Byte
  | none => padTo 5 []
  | some g => oneByte g.length :: padTo 4 (g.map oneByte)

/-- A label field of a record: a length, then twelve bytes. The bytes beyond the length are returned as
zeros, which is the model's choice (log entry 30). -/
def labelField : Option (List Byte) → List Byte
  | none => padTo 13 []
  | some c => oneByte c.length :: padTo 12 c

/-- An absent number is returned as zeros (R186). -/
def orZero (n : Option Nat) : Nat := n.getD 0

/-- The 42 bytes of an entry record (R186). That the bits it does not name, 7 and 6 of the presence byte and
7 to 2 of the dispute byte, are returned as 0 is the model's choice (log entry 31). -/
def entryRecord (e : Entry) : List Byte :=
  [oneByte e.state.code, oneByte (originCode e.origin),
    oneByte (bitValue e.identity.isSome 1 + bitValue e.incarnation.isSome 2
      + bitValue e.terms.isSome 4 + bitValue e.label.isSome 8 + bitValue e.lease.isSome 16
      + bitValue e.remaining.isSome 32)]
    ++ word16Bytes e.generation ++ identityBytes (e.identity.getD 0)
    ++ word16Bytes (e.incarnation.getD 0) ++ [oneByte (orZero e.address),
      oneByte (orZero (e.terms.map (fun t => t.cls.val))),
      oneByte (orZero (e.terms.map Terms.window))]
    ++ groupsField (e.terms.map Terms.groups) ++ labelField e.label
    ++ beBytes 2 (orZero e.lease) ++ beBytes 2 (orZero e.remaining)
    ++ [oneByte (heldCode e.heldCause), oneByte e.dispute.code]

/-- The fourteen bytes of a LOOKUP record (R186). That bits 7 to 3 of its flags, which it does not name, are
returned as 0 is the model's choice (log entry 31). -/
def LookupRecord.bytes (r : LookupRecord) : List Byte :=
  [oneByte r.index.val, oneByte (r.state.code + 16 * originCode r.origin),
    oneByte (bitValue r.identity.isSome 1 + bitValue r.dispute.duplicate 2
      + bitValue r.dispute.collision 4)]
    ++ identityBytes (r.identity.getD 0) ++ [oneByte r.address] ++ word16Bytes r.generation

/-- A time still to run, in units of 10 ms rounded up (R180). -/
def unitsLeft (deadline now : Nat) : Nat :=
  (deadline - now + (Config.unit10ms - 1)) / Config.unit10ms

/-- A stage's code in a context record. -/
def Stage.code : Stage → Nat
  | .collecting _ => 1 | .checking .. => 2 | .offered _ => 3

/-- Timer kind and time still to run; a probe timer not yet started shows as none (R180, R186). -/
def timerField (now : Nat) : Stage → List Byte
  | .collecting d => [1, oneByte (unitsLeft d now)]
  | .checking _ (.running d) => [2, oneByte (unitsLeft d now)]
  | .checking _ (.awaiting _) => [0, 0]
  | .offered o => [3, oneByte (unitsLeft o.deadline now)]

/-- Probe tries used, present in CHECKING alone. -/
def Stage.tries : Stage → Nat
  | .checking n _ => n
  | _ => 0

/-- The offer, present in OFFERED alone. -/
def Stage.offer? : Stage → Option Offer
  | .offered o => some o
  | _ => none

/-- The offer part of a context record: reserved entry, class, address, window, lease, TERMS turn. -/
def offerField : Option Offer → List Byte
  | none => padTo 7 []
  | some o => [oneByte o.entry.val, oneByte o.cls.val, oneByte o.address, oneByte o.window]
      ++ beBytes 2 o.lease ++ [oneByte o.turn]

/-- The 51 bytes of a context record; an IDLE context shows its state alone (R180, R186). That the bytes of
fields that are absent by the context's state, and governed by no presence bit, are zeros is the model's
choice: all such bytes of an IDLE context but its state, probe tries used outside CHECKING, and the time
still to run of a probe timer not yet started (log entry 29). So is a 0 in bit 7 of the presence byte, which
has no name (log entry 31). -/
def contextRecord (now : Nat) : Option Exchange → List Byte
  | none => padTo 51 []
  | some x =>
    [oneByte x.stage.code] ++ identityBytes x.identity ++ word16Bytes x.incarnation
      ++ [x.classSet] ++ beBytes 2 x.requestedLease
      ++ [oneByte x.hint, oneByte x.lastTurn, oneByte x.pagesTaken,
        oneByte (bitValue x.groupsPage.isSome 1 + bitValue x.windowRequest.isSome 2
          + bitValue x.label.isSome 4 + bitValue x.leaseCap.isSome 8 + bitValue x.target.isSome 16
          + bitValue x.probeNeeded 32 + bitValue x.stage.offer?.isSome 64)]
      ++ groupsField x.groupsPage ++ [oneByte (orZero x.windowRequest)] ++ labelField x.label
      ++ [x.classCap] ++ beBytes 2 (orZero x.leaseCap)
      ++ [oneByte (orZero (x.target.map Fin.val)), oneByte x.stage.tries]
      ++ offerField x.stage.offer? ++ timerField now x.stage

/-! ### Host commands: codes, lengths and fields (R186) -/

/-- The code of a result status. -/
def Status.code : Status → Byte
  | .ok => 0x00 | .phase => 0x01 | .range => 0x02 | .stale => 0x03 | .noEntry => 0x04
  | .notLive => 0x05 | .addressInUse => 0x06 | .identityInUse => 0x07 | .tableFull => 0x08
  | .listFull => 0x09 | .aborted => 0x0A | .malformed => 0x0B

/-- The status byte NONE, a reply of its own (R165). -/
def noneByte : Byte := 0x0C

/-- The bytes of a result record (R165). -/
def ResultRecord.bytes (r : ResultRecord) : List Byte :=
  [r.tag, r.status.code, oneByte r.data.length] ++ r.data

/-- A groups field of a command, or none where it breaks its rules: a count above 4, a group above 13
or given twice. Bytes beyond the count are ignored. -/
def readGroups (p : List Byte) (k : Nat) : Option (List Nat) :=
  let n := (byteAt p k).toNat
  let g := ((p.drop (k + 1)).take n).map BitVec.toNat
  if n ≤ 4 && groupsValid g then some g else none

/-- A label field of a command marked present, or none where it breaks its rules: a length of 0 or
above 12, a character outside 20h..7Eh. Bytes beyond the length are ignored. -/
def readLabel (p : List Byte) (k : Nat) : Option (List Byte) :=
  let n := (byteAt p k).toNat
  let c := (p.drop (k + 1)).take n
  if 1 ≤ n ∧ n ≤ 12 ∧ charsValid c then some c else none

/-- An option byte: 0 or 1, and any other value is out of range (none). -/
def readOption (p : List Byte) (k : Nat) : Option Bool :=
  match (byteAt p k).toNat with
  | 0 => some false
  | 1 => some true
  | _ => none

/-- An entry index, or none above 159. -/
def readIndex (p : List Byte) (k : Nat) : Option Index :=
  if h : (byteAt p k).toNat < 160 then some ⟨(byteAt p k).toNat, h⟩ else none

/-- A class byte, or none above 7. -/
def readClass (p : List Byte) (k : Nat) : Option Cls :=
  if h : (byteAt p k).toNat < 8 then some ⟨(byteAt p k).toNat, h⟩ else none

/-- A window byte, or none outside 1..64. -/
def readWindow (p : List Byte) (k : Nat) : Option Nat :=
  let w := (byteAt p k).toNat
  if 1 ≤ w ∧ w ≤ 64 then some w else none

/-- The rule of a FILTER-PUT, from its pattern on, or none where its fields break R50's test 1. -/
def readRule (p : List Byte) : Option FilterRule :=
  let pattern := identityAt p 1
  let mask := identityAt p 9
  let cap : ClassSet := byteAt p 18
  let lease := natAt p 19 2
  match (byteAt p 17).toNat with
  | 0 =>
    if cap = 0 ∧ lease = 0 then some ⟨pattern, mask, .admits, none, none⟩ else none
  | 1 =>
    if cap = 0 ∧ lease = 0 then some ⟨pattern, mask, .refuse, none, none⟩ else none
  | 2 =>
    if cap ≠ 0 ∧ lease ≤ 4095 then
      some ⟨pattern, mask, .admitCapped, some cap, if lease = 0 then none else some lease⟩
    else none
  | _ => none

/-- The code of a verdict. -/
def Verdict.code : Verdict → Nat
  | .admits => 0 | .refuse => 1 | .admitCapped => 2

/-- A rule as FILTER-READ returns it: its position, then the layout of FILTER-PUT (R173, R186). -/
def ruleBytes (position : Nat) (r : FilterRule) : List Byte :=
  [oneByte position] ++ identityBytes r.pattern ++ identityBytes r.mask
    ++ [oneByte r.verdict.code, r.classCap.getD 0] ++ beBytes 2 (orZero r.leaseCap)

/-- A deferral record's nine bytes. -/
def Deferral.bytes (d : Deferral) : List Byte := identityBytes d.identity ++ [oneByte d.count]

/-- ADD-STATIC's fields. -/
structure StaticFields where
  address  : Nat
  identity : Option Identity
  terms    : Terms
  label    : Option (List Byte)
  deriving DecidableEq, Repr

/-- A field whose presence a flag governs: absent and not examined when the flag is clear, and
otherwise read, with `none` for a field out of range (R186). -/
def readWhen {α : Type} (present : Bool) (field : Option α) : Option (Option α) :=
  if present then field.map some else some none

/-- Reads ADD-STATIC (R174 check 1), none for RANGE. Flag bits 7..2 have no meaning and give RANGE
(log entry 4). -/
def readStatic (p : List Byte) : Option StaticFields := do
  let address := (byteAt p 0).toNat
  let flags := byteAt p 1
  guard (1 ≤ address ∧ address ≤ Config.maxAddress)
  guard (flags.toNat < 4)
  let cls ← readClass p 10
  let window ← readWindow p 11
  let groups ← readGroups p 12
  let label ← readWhen (flags.getLsbD 1) (readLabel p 17)
  some { address := address
         identity := if flags.getLsbD 0 then some (identityAt p 2) else none
         terms := ⟨cls, window, groups⟩
         label := label }

/-- EDIT's fields: each setting present or absent; the label setting gives a label or clears it. -/
structure EditFields where
  index      : Index
  expected   : Word16
  notify     : Bool
  cls        : Option Cls
  window     : Option Nat
  groups     : Option (List Nat)
  label      : Option (List Byte)
  clearLabel : Bool
  lease      : Option Nat
  deriving DecidableEq, Repr

/-- A lease a command sets: 1..4095. -/
def readLease (p : List Byte) (k : Nat) : Option Nat :=
  let l := natAt p k 2
  if 1 ≤ l ∧ l ≤ 4095 then some l else none

/-- Reads EDIT (R175, Fields), none for RANGE. Flag bit 7 has no meaning and gives RANGE (log
entry 4). -/
def readEdit (p : List Byte) : Option EditFields := do
  let index ← readIndex p 0
  let flags := byteAt p 3
  guard (flags.toNat < 128)
  guard (¬ (flags.getLsbD 4 ∧ flags.getLsbD 5))
  let cls ← readWhen (flags.getLsbD 1) (readClass p 4)
  let window ← readWhen (flags.getLsbD 2) (readWindow p 5)
  let groups ← readWhen (flags.getLsbD 3) (readGroups p 6)
  let label ← readWhen (flags.getLsbD 4) (readLabel p 11)
  let lease ← readWhen (flags.getLsbD 6) (readLease p 24)
  some { index := index, expected := word16At p 1, notify := flags.getLsbD 0, cls := cls,
         window := window, groups := groups, label := label, clearLabel := flags.getLsbD 5,
         lease := lease }

/-- The five bytes of REVOKE and of CONFIRM: index, expected generation, mode or action, notify. -/
structure EndFields where
  index    : Index
  expected : Word16
  second   : Bool
  notify   : Bool
  deriving DecidableEq, Repr

/-- Reads REVOKE or CONFIRM, none for RANGE. `second` is mode FREE, or action EVICT. -/
def readEnd (p : List Byte) : Option EndFields := do
  let index ← readIndex p 0
  let second ← readOption p 3
  let notify ← readOption p 4
  some { index := index, expected := word16At p 1, second := second, notify := notify }

/-- Reads LOOKUP, none for RANGE (R114). -/
def readLookup (p : List Byte) : Option LookupRequest := do
  guard (groupByteOk (byteAt p 16).toNat)
  let cursor ← readIndex p 17
  let occupied ← readOption p 18
  let exclude ← readOption p 19
  some { pattern := identityAt p 0, mask := identityAt p 8, group := (byteAt p 16).toNat,
         cursor := cursor, liveOnly := !occupied, excludeDisputed := exclude }

/-! ### Parameters (R147, R186) -/

/-- The parameters, each by its own name; a window cap is named with its class. -/
inductive Param where
  | busRate | grantLow | grantHigh | offered | priority | tickPeriod | minLease | maxLease
  | defaultLease | grace | hold | settle | legacyLearning | legacySilence | adoption
  | defaultVerdict | pageTimeout | agreeTimeout | probeTimeout | probeTries | answerLifetime
  | holdoffUnit | segmentSilence
  | windowCap (c : Cls)
  deriving DecidableEq, Repr

/-- The parameter of a number, none for a number that names none. -/
def Param.ofNumber (n : Nat) : Option Param :=
  if 0x20 ≤ n ∧ n ≤ 0x27 then some (.windowCap (Fin.ofNat 8 (n - 0x20)))
  else
    [none, some .busRate, some .grantLow, some .grantHigh, some .offered, some .priority,
      some .tickPeriod, some .minLease, some .maxLease, some .defaultLease, some .grace,
      some .hold, some .settle, some .legacyLearning, some .legacySilence, some .adoption,
      some .defaultVerdict, some .pageTimeout, some .agreeTimeout, some .probeTimeout,
      some .probeTries, some .answerLifetime, some .holdoffUnit, some .segmentSilence].getD n none

/-- The parameters marked O in R147, which may be set in OFFLINE only. -/
def Param.offlineOnly : Param → Bool
  | .busRate => true
  | .tickPeriod => true
  | .settle => true
  | .adoption => true
  | _ => false

/-- The eight four-bit classes of a priority value, first priority in the high bits. -/
def priorityOf (v : Nat) : List Nat := (List.range 8).map (fun k => v / 16 ^ (7 - k) % 16)

/-- The value of a priority order. -/
def priorityValue (order : List Nat) : Nat := order.foldl (fun v c => v * 16 + c) 0

/-- A value's own range (R147); the two pairs are tested apart (R148). -/
def Param.inRange (v : Nat) : Param → Bool
  | .busRate => v == 125 || v == 250 || v == 500
  | .grantLow => decide (1 ≤ v ∧ v ≤ 239)
  | .grantHigh => decide (1 ≤ v ∧ v ≤ 239)
  | .offered => decide (1 ≤ v ∧ v ≤ 255)
  | .priority => (priorityOf v).all (· ≤ 7) && decide (priorityOf v).Nodup
  | .tickPeriod => decide (1 ≤ v ∧ v ≤ 240)
  | .minLease => decide (1 ≤ v ∧ v ≤ 4095)
  | .maxLease => decide (1 ≤ v ∧ v ≤ 4095)
  | .defaultLease => decide (1 ≤ v ∧ v ≤ 4095)
  | .grace => decide (v ≤ 255)
  | .hold => decide (v ≤ 4095)
  | .settle => decide (v ≤ 255)
  | .legacyLearning => decide (v ≤ 1)
  | .legacySilence => decide (1 ≤ v ∧ v ≤ 4095)
  | .adoption => decide (v ≤ 1)
  | .defaultVerdict => decide (v ≤ 1)
  | .pageTimeout => decide (1 ≤ v ∧ v ≤ 255)
  | .agreeTimeout => decide (1 ≤ v ∧ v ≤ 255)
  | .probeTimeout => decide (1 ≤ v ∧ v ≤ 255)
  | .probeTries => decide (1 ≤ v ∧ v ≤ 7)
  | .answerLifetime => decide (1 ≤ v ∧ v ≤ 255)
  | .holdoffUnit => decide (1 ≤ v ∧ v ≤ 255)
  | .segmentSilence => decide (1 ≤ v ∧ v ≤ 255)
  | .windowCap _ => decide (1 ≤ v ∧ v ≤ 64)

/-- The value in force, in the units of R147. -/
def Params.get (p : Params) : Param → Nat
  | .busRate => p.busRate
  | .grantLow => p.grantLow
  | .grantHigh => p.grantHigh
  | .offered => p.offered.toNat
  | .priority => priorityValue p.priority
  | .tickPeriod => p.tickPeriod
  | .minLease => p.minLease
  | .maxLease => p.maxLease
  | .defaultLease => p.defaultLease
  | .grace => p.grace
  | .hold => p.hold
  | .settle => p.settle
  | .legacyLearning => bitValue p.legacyLearning 1
  | .legacySilence => p.legacySilence
  | .adoption => bitValue p.adoption 1
  | .defaultVerdict => bitValue (!p.defaultAdmit) 1
  | .pageTimeout => p.pageTimeout
  | .agreeTimeout => p.agreeTimeout
  | .probeTimeout => p.probeTimeout
  | .probeTries => p.probeTries
  | .answerLifetime => p.answerLifetime
  | .holdoffUnit => p.holdoffUnit
  | .segmentSilence => p.segmentSilence
  | .windowCap c => p.windowCap[c]

/-- A parameter set to a value that lies in its range. -/
def Params.put (v : Nat) (p : Params) : Param → Params
  | .busRate => { p with busRate := v }
  | .grantLow => { p with grantLow := v }
  | .grantHigh => { p with grantHigh := v }
  | .offered => { p with offered := BitVec.ofNat 8 v }
  | .priority => { p with priority := priorityOf v }
  | .tickPeriod => { p with tickPeriod := v }
  | .minLease => { p with minLease := v }
  | .maxLease => { p with maxLease := v }
  | .defaultLease => { p with defaultLease := v }
  | .grace => { p with grace := v }
  | .hold => { p with hold := v }
  | .settle => { p with settle := v }
  | .legacyLearning => { p with legacyLearning := v == 1 }
  | .legacySilence => { p with legacySilence := v }
  | .adoption => { p with adoption := v == 1 }
  | .defaultVerdict => { p with defaultAdmit := v == 0 }
  | .pageTimeout => { p with pageTimeout := v }
  | .agreeTimeout => { p with agreeTimeout := v }
  | .probeTimeout => { p with probeTimeout := v }
  | .probeTries => { p with probeTries := v }
  | .answerLifetime => { p with answerLifetime := v }
  | .holdoffUnit => { p with holdoffUnit := v }
  | .segmentSilence => { p with segmentSilence := v }
  | .windowCap c => { p with windowCap := p.windowCap.set c v }

/-- One setting of a CONFIGURE: the parameter it names, if any, and its value. -/
structure Setting where
  param : Option Param
  value : Nat
  deriving DecidableEq, Repr

/-- The k-th setting of a CONFIGURE's parameters: number 1, value 4. -/
def settingAt (p : List Byte) (k : Nat) : Setting :=
  { param := Param.ofNumber (byteAt p (5 * k)).toNat, value := natAt p (5 * k + 1) 4 }

/-- The settings of a CONFIGURE, in order. -/
def readSettings (p : List Byte) : List Setting :=
  (List.range (p.length / 5)).map (settingAt p)

end Sys2Proof.Machine
end

