-- ==== Sys2Proof/Machine/Ops.lean ====
section
/-! DEFINITION. The shared operations: the table and its change requests, admission, completions, the
answer queue, contexts, resolution, the probe, the arbiter and the command frame. -/

namespace Sys2Proof.Machine

/-! ### Time -/

/-- Time moves on to the moment an event of the part's own timers falls; it never runs back (log
entry 5). -/
def advanceTo (t : Nat) (s : State) : State := { s with now := max s.now t }

/-- The end of a timer of `units` units of 10 ms started now. -/
def timerEnd (units : Nat) (s : State) : Nat := s.now + units * Config.unit10ms

/-! ### Reading the table -/

/-- The entry at an index. -/
def entry (s : State) (i : Index) : Entry := s.table.entries[i]

/-- Occupied: in any state other than FREE (R2). -/
def Entry.occupied (e : Entry) : Bool := e.state != .free

/-- Live: BOUND or LAPSING (R2). -/
def Entry.live (e : Entry) : Bool := e.state == .bound || e.state == .lapsing

/-- Of origin NEGOTIATED or ADOPTED, the two that have a lease (R1, R3). -/
def Entry.leased (e : Entry) : Bool :=
  e.origin == some .negotiated || e.origin == some .adopted

/-- Timed by the lease clock (R26): NEGOTIATED or ADOPTED in BOUND, LAPSING or HELD, and LEGACY. -/
def Entry.timed (e : Entry) : Bool :=
  (e.leased && (e.live || e.state == .held)) || (e.origin == some .legacy && e.state == .bound)

/-- A dispute is present when it holds a reason (R5). -/
def Dispute.present (d : Dispute) : Bool := d.duplicate || d.collision

/-- The empty dispute. -/
def Dispute.empty : Dispute := ⟨false, false⟩

/-- The address map (R14): the occupied entry that holds an address, or none. -/
def entryAt (s : State) (a : Nat) : Option Index :=
  (List.finRange 160).find? (fun i => (entry s i).occupied && (entry s i).address == some a)

/-- The entry of an identity (R15): the occupied entry that holds it, or none. -/
def entryOf (s : State) (x : Identity) : Option Index :=
  (List.finRange 160).find? (fun i => (entry s i).occupied && (entry s i).identity == some x)

/-- An occupied entry other than `i` holds the address (R16). -/
def addressHeldByOther (s : State) (a : Nat) (i : Index) : Bool :=
  (List.finRange 160).any
    (fun j => j != i && (entry s j).occupied && (entry s j).address == some a)

/-- An occupied entry other than `i` holds the identity (R16). -/
def identityHeldByOther (s : State) (x : Identity) (i : Index) : Bool :=
  (List.finRange 160).any
    (fun j => j != i && (entry s j).occupied && (entry s j).identity == some x)

/-! ### Change requests (R8) -/

/-- The fields of an entry that the generation tracks (R6): all but generation, lease, remaining. -/
def Entry.tracked (e : Entry) : Entry :=
  { e with generation := 0, lease := none, remaining := none, superseded := none }

/-- The generation after a change request (R6): advanced by 1 if a tracked field changed. -/
def nextGeneration (old new : Entry) : Word16 :=
  if old.tracked = new.tracked then old.generation else old.generation + 1

/-- One change request on one entry (R8): the fields of `new`, the generation by R6, and the causes
handed to the change unit, all in one event. -/
def changeEntry (i : Index) (new : Entry) (causes : CauseSet) (s : State) : State :=
  { s with
    table.entries :=
      s.table.entries.set i { new with generation := nextGeneration (entry s i) new }
    change.entryCauses := s.change.entryCauses.set i (s.change.entryCauses[i] ||| causes) }

/-- Keeps at entry `i` which holder its binding superseded, or keeps none. It is no change request: the
field is the model's own (log entry 27). -/
def rememberHolder (i : Index) (r : Option Superseded) (s : State) : State :=
  { s with table.entries := s.table.entries.set i { entry s i with superseded := r } }

/-- Frees an entry, whatever its cause (R13). -/
def freeEntry (i : Index) (s : State) : State :=
  changeEntry i (Entry.freeAt (entry s i).generation) causeReleased s

/-- Ends a NEGOTIATED or ADOPTED binding with a hold (R12); frees it when hold ticks is 0. -/
def holdEntry (cause : HeldCause) (i : Index) (s : State) : State :=
  if s.phase.params.hold = 0 then freeEntry i s
  else
    changeEntry i
      { entry s i with
        state := .held, heldCause := some cause, remaining := some s.phase.params.hold,
        dispute := Dispute.empty }
      causeState s

/-- Ends a live binding for the host: with a hold where the origin allows one, and to FREE for a
STATIC or LEGACY entry (R3, R12, R13). -/
def endBinding (cause : HeldCause) (i : Index) (s : State) : State :=
  if (entry s i).leased then holdEntry cause i s else freeEntry i s

/-- A live entry renewed with a lease (R34): BOUND, with lease and remaining set to it. -/
def Entry.renewed (e : Entry) (lease : Nat) : Entry :=
  { e with state := .bound, lease := some lease, remaining := some lease }

/-- The cause of a renewal: STATE when a LAPSING entry returns to BOUND, none otherwise. -/
def renewCauses (e : Entry) : CauseSet := if e.state = .lapsing then causeState else 0

/-- Renews a live binding (R34, R70). -/
def renewEntry (i : Index) (lease : Nat) (s : State) : State :=
  changeEntry i ((entry s i).renewed lease) (renewCauses (entry s i)) s

/-- Adds ADDRESS_COLLISION to an entry's dispute (R88, R104): to an entry in BOUND or LAPSING alone; a
reason already present changes nothing and is not counted. -/
def addCollision (i : Index) (s : State) : State :=
  let e := entry s i
  if e.dispute.collision || !e.live then s
  else
    count .collisions
      (changeEntry i { e with dispute := { e.dispute with collision := true } } causeDispute s)

/-- Adds DUPLICATE_IDENTITY to an entry's dispute (R100, R104): to an entry in BOUND or LAPSING alone.
Its counter is counted with the probe's outcome. -/
def addDuplicate (i : Index) (s : State) : State :=
  let e := entry s i
  if e.dispute.duplicate || !e.live then s
  else changeEntry i { e with dispute := { e.dispute with duplicate := true } } causeDispute s

/-! ### Allocation and reclaim -/

/-- The lowest FREE entry (R17). -/
def lowestFree (s : State) : Option Index :=
  (List.finRange 160).find? (fun i => (entry s i).state == .free)

/-- The HELD entry that reclaim chooses (R18): least remaining time, lowest index among equals. -/
def reclaimable (s : State) : Option Index :=
  (List.finRange 160).find? (fun i =>
    (entry s i).state == .held
      && (List.finRange 160).all (fun j =>
        (entry s j).state != .held
          || decide (orZero (entry s i).remaining ≤ orZero (entry s j).remaining)))

/-- Allocation with reclaim allowed (R17, R18): the entry to take, FREE in the state returned; none
when the allocation fails. -/
def allocate (s : State) : Option (Index × State) :=
  match lowestFree s with
  | some i => some (i, s)
  | none => (reclaimable s).map (fun i => (i, freeEntry i s))

/-! ### Admission -/

/-- The caps of a verdict that is not REFUSE (R45). -/
structure Caps where
  classes : ClassSet
  lease   : Option Nat
  deriving DecidableEq, Repr

/-- A rule matches when every bit set in its mask has the pattern's value in the identity (R45). -/
def maskMatches (pattern mask x : Identity) : Bool := x &&& mask == pattern &&& mask

/-- What a deciding rule gives (R45); none is REFUSE. -/
def FilterRule.caps (r : FilterRule) : Option Caps :=
  match r.verdict with
  | .admits => some ⟨0xFF, none⟩
  | .refuse => none
  | .admitCapped => some ⟨r.classCap.getD 0, r.leaseCap⟩

/-- The verdict for an identity (R45, R46): the first matching rule's, or the default; none is
REFUSE. -/
def verdict (s : State) (x : Identity) : Option Caps :=
  match s.admission.filter.find? (fun r => maskMatches r.pattern r.mask x) with
  | some r => r.caps
  | none => if s.phase.params.defaultAdmit then some ⟨0xFF, none⟩ else none

/-- The lease clamp (R32). -/
def clampLease (p : Params) (requested : Nat) (cap : Option Nat) : Nat :=
  let asked := if requested = 0 then p.defaultLease else requested
  let bounded := min (max asked p.minLease) p.maxLease
  match cap with
  | none => bounded
  | some c => min bounded c

/-- An identity's defer count, 0 when it has no record. -/
def deferCount (l : List Deferral) (x : Identity) : Nat :=
  match l.find? (fun d => d.identity == x) with
  | some d => d.count
  | none => 0

/-- The deferral list without an identity's record (R58). -/
def dropDeferral (x : Identity) (l : List Deferral) : List Deferral :=
  l.filter (fun d => d.identity != x)

/-- The update of R54: the identity's record, its count one higher up to 255, at the front; the last
of seventeen records falls off the back. -/
def deferHoldoff (x : Identity) (l : List Deferral) : List Deferral :=
  (⟨x, min (deferCount l x + 1) 255⟩ :: dropDeferral x l).take Config.deferralRecords

/-! ### Completing a command -/

/-- Completes the command in hand (R163): its result record is built and the engine becomes DONE. -/
def finish (status : Status) (data : List Byte) (s : State) : State :=
  match s.host.engine with
  | .executing c => { s with host.engine := .done ⟨c.tag, status, data⟩ }
  | .idle => s
  | .done _ => s

/-- What the command in hand waits for from now on (R164). -/
def waitFor (w : Work) (s : State) : State :=
  match s.host.engine with
  | .executing c => { s with host.engine := .executing { c with work := w } }
  | .idle => s
  | .done _ => s

/-- The notice outcomes (R170). -/
inductive NoticeOutcome where
  | none | sent | dropped | pending
  deriving DecidableEq, Repr

/-- The code of a notice outcome (R186). -/
def NoticeOutcome.code : NoticeOutcome → Nat
  | .none => 0 | .sent => 1 | .dropped => 2 | .pending => 3

/-- The data of EDIT, REVOKE and CONFIRM: index, generation, notice outcome. -/
def noticeData (i : Index) (g : Word16) (o : NoticeOutcome) : List Byte :=
  [oneByte i.val] ++ word16Bytes g ++ [oneByte o.code]

/-! ### Completion reports (R131) -/

/-- One waiter is told that its message completed. A context that awaits this CHECK starts its probe
timer (R95); a command that waits for its notice completes (R164). Any other report changes
nothing. -/
def reportTo (o : NoticeOutcome) (w : Waiter) (s : State) : State :=
  match w with
  | .context c token =>
    match s.join.contexts[c] with
    | none => s
    | some x =>
      match x.stage with
      | .checking tries (.awaiting awaited) =>
        if awaited = token then
          { s with
            join.contexts :=
              s.join.contexts.set c
                (some { x with
                  stage := .checking tries
                    (.running (timerEnd s.phase.params.probeTimeout s)) }) }
        else s
      | .checking _ (.running _) => s
      | .collecting _ => s
      | .offered _ => s
  | .engine =>
    match s.host.engine with
    | .idle => s
    | .done _ => s
    | .executing r =>
      match r.work with
      | .notice i g => finish .ok (noticeData i g o) s
      | .atOnce => s
      | .attemptEnd => s
      | .walk => s

/-- Every waiter of a message is told, in order. -/
def reportAll (o : NoticeOutcome) (ws : List Waiter) (s : State) : State :=
  ws.foldl (fun s w => reportTo o w s) s

/-! ### The quiet time (R128) -/

/-- Microseconds of one bit time at the configured rate: 8, 4 or 2. -/
def bitTime (s : State) : Nat := 1000 / s.phase.params.busRate

/-- The quiet time in bit times (R128), counting those counted at an earlier rate as they were (log
entry 20). -/
def quietBits (s : State) : Nat :=
  s.port.quietCarried + (s.now - s.port.quietFrom) / bitTime s

/-- Carrier is absent and the line has been quiet for the gap (R128). -/
def gapOver (s : State) : Bool := !s.port.carrier && decide (Config.gapBits ≤ quietBits s)

/-- The transmitter takes up the head, which has passed its lifetime check or come to the end of its
backoff (R128): the attempt begins at once where the gap is over, and otherwise the transmitter waits
for it in DEFERRING. An attempt that begins so meets no carrier period under way. -/
def takeUp (s : State) : State :=
  if gapOver s then { s with port.tx := .sending s.now, port.overlapped := false }
  else { s with port.tx := .deferring none }

/-! ### The answer queue (R125 to R127) -/

/-- An identical message among those waiting takes the new one's waiters; none if there is none. -/
def mergeInto (destination : Nat) (a : Answer) (ws : List Waiter) :
    List QueuedMessage → Option (List QueuedMessage)
  | [] => none
  | m :: rest =>
    if m.destination = destination ∧ m.answer = a then
      some ({ m with waiters := m.waiters ++ ws } :: rest)
    else (mergeInto destination a ws rest).map (m :: ·)

/-- A message as it joins the queue. -/
def newMessage (destination : Nat) (a : Answer) (ws : List Waiter) (s : State) : QueuedMessage :=
  { destination := destination, answer := a, produced := s.now, collisions := 0, waiters := ws }

/-- Hands a message to the answer queue (R125, R126): not added in OFFLINE; merged into an identical
one that waits behind the head; dropped and counted at a full queue; and otherwise added at the back,
where a message added to an empty queue becomes the head and is taken up. The drop of a notice is counted
as any other message's is; that a notice is not counted (R170) is said of its production (log entry 26). -/
def handOver (destination : Nat) (a : Answer) (ws : List Waiter) (s : State) : State :=
  if s.phase.phase = .offline then reportAll .dropped ws s
  else
    match s.port.queue with
    | [] =>
      takeUp { s with port.queue := [newMessage destination a ws s] }
    | head :: waiting =>
      match mergeInto destination a ws waiting with
      | some waiting' => { s with port.queue := head :: waiting' }
      | none =>
        if Config.queueMessages ≤ waiting.length + 1 then
          reportAll .dropped ws (setPart partQueueDrop (count .answerDrops s))
        else
          { s with port.queue := head :: waiting ++ [newMessage destination a ws s] }

/-- Produces an answer that has no waiter. -/
def send (destination : Nat) (a : Answer) (s : State) : State := handOver destination a [] s

/-- Produces a REFUSE, which counts REFUSALS whatever the queue then does with it. -/
def refuse (destination : Nat) (x : Identity) (k : ReqKind) (r : Reason) (s : State) : State :=
  send destination (.refuse x k r) (count .refusals s)

/-- Produces a HOLDOFF to an identity through the deferral list (R54 to R56). -/
def holdoff (x : Identity) (s : State) : State :=
  let s' := { s with admission.deferrals := deferHoldoff x s.admission.deferrals }
  send Config.anonymous
    (.holdoff x (min (deferCount s'.admission.deferrals x) 7) s.phase.params.holdoffUnit)
    (count .holdoffs s')

/-- The lifetime check (R127): messages whose age exceeds the answer lifetime are dropped and counted,
notices too (log entry 26), as they become the head; the first that passes is taken up by the
transmitter. -/
def promote : List QueuedMessage → State → State
  | [], s => { s with port.queue := [], port.tx := .idle }
  | m :: rest, s =>
    if s.phase.params.answerLifetime * Config.unit10ms < s.now - m.produced then
      promote rest (reportAll .dropped m.waiters (count .answerDrops s))
    else takeUp { s with port.queue := m :: rest }

/-- A transmission attempt is under way: the transmitter is SENDING or JAMMING (R120, R134). -/
def attemptUnderWay (s : State) : Bool :=
  match s.port.tx with
  | .sending _ => true
  | .jamming _ => true
  | .idle => false
  | .deferring _ => false
  | .backingOff _ => false

/-! ### Contexts (R60 to R63) -/

/-- A context's exchange, none when IDLE. -/
def context (s : State) (c : CtxNum) : Option Exchange := s.join.contexts[c]

/-- A context becomes IDLE or takes an exchange. -/
def setContext (c : CtxNum) (x : Option Exchange) (s : State) : State :=
  { s with join.contexts := s.join.contexts.set c x }

/-- The context that holds an identity (R61), or none. -/
def contextOf (s : State) (x : Identity) : Option CtxNum :=
  (List.finRange 8).find? (fun c => (context s c).any (fun e => e.identity == x))

/-- The lowest IDLE context (R61), or none. -/
def lowestIdle (s : State) : Option CtxNum :=
  (List.finRange 8).find? (fun c => (context s c).isNone)

/-- The OFFERED context whose reserved entry is `i` (R61), or none. -/
def offeringOf (s : State) (i : Index) : Option CtxNum :=
  (List.finRange 8).find? (fun c =>
    (context s c).any (fun e => e.stage.offer?.any (fun o => o.entry == i)))

/-- An exchange that is in CHECKING. -/
def Exchange.checking (e : Exchange) : Bool :=
  match e.stage with
  | .checking .. => true
  | .collecting _ => false
  | .offered _ => false

/-- The CHECKING context whose probe runs against entry `i` (R97), or none. -/
def probing (s : State) (i : Index) : Option CtxNum :=
  (List.finRange 8).find? (fun c =>
    (context s c).any (fun e => e.checking && e.target == some i))

/-- Withdraws an offer (R13): the entry is freed only while it is RESERVED. -/
def withdraw (i : Index) (s : State) : State :=
  if (entry s i).state = .reserved then freeEntry i s else s

/-- Closes a context without an answer (R63); an OFFERED one's reserved entry is freed. -/
def closeContext (c : CtxNum) (s : State) : State :=
  match context s c with
  | none => s
  | some x =>
    match x.stage with
    | .offered o => setContext c none (withdraw o.entry s)
    | .collecting _ => setContext c none s
    | .checking .. => setContext c none s

/-- Closes a context with a REFUSE of its identity that refuses a request of kind `k` (R63). -/
def closeRefused (c : CtxNum) (k : ReqKind) (r : Reason) (s : State) : State :=
  match context s c with
  | none => s
  | some x => refuse Config.anonymous x.identity k r (closeContext c s)

/-- Closes a context with a REFUSE in an event that refuses no request: the request kind it carries is
a free value (log entry 2). -/
def closeUnasked (c : CtxNum) (r : Reason) (s : State) : State :=
  closeRefused c (Config.closingKind s.freeUsed) r { s with freeUsed := s.freeUsed + 1 }

/-- Closes every context silently (R84). -/
def closeAll (s : State) : State := (List.finRange 8).foldl (fun s c => closeContext c s) s

/-! ### Resolution (R75 to R79) -/

/-- The target as R75 leaves it: the entry recorded, while it holds the context's identity with origin
NEGOTIATED or ADOPTED. -/
def settledTarget (s : State) (x : Exchange) : Option Index :=
  x.target.filter (fun i =>
    (entry s i).occupied && (entry s i).identity == some x.identity && (entry s i).leased)

/-- Class c lies in a class set. -/
def inClassSet (set : ClassSet) (c : Nat) : Bool := set.getLsbD c

/-- The class (R77): the first in the priority order that lies in all three sets. -/
def chosenClass (p : Params) (x : Exchange) : Option Cls :=
  (p.priority.find? (fun c =>
    inClassSet x.classSet c && inClassSet p.offered c && inClassSet x.classCap c)).map
      (fun c => Fin.ofNat 8 c)

/-- The window (R77): the class's cap, or a smaller request. -/
def chosenWindow (p : Params) (x : Exchange) (c : Cls) : Nat :=
  match x.windowRequest with
  | none => p.windowCap[c]
  | some w => min w p.windowCap[c]

/-- An address is free when no occupied entry holds it (R21). -/
def addressFree (s : State) (a : Nat) : Bool := (entryAt s a).isNone

/-- The address of a join (R21): the target's, the hint, or the lowest free one of the grant range. -/
def chosenAddress (s : State) (target : Option Index) (hint : Nat) : Option Nat :=
  let p := s.phase.params
  match target with
  | some i => (entry s i).address
  | none =>
    if hint ≠ 0 ∧ p.grantLow ≤ hint ∧ hint ≤ p.grantHigh ∧ addressFree s hint then some hint
    else
      (List.range (p.grantHigh + 1)).find? (fun a => decide (p.grantLow ≤ a) && addressFree s a)

/-- The entry a join takes: its target, or one allocated (R17, R78). -/
def joinEntry (s : State) : Option Index → Option (Index × State)
  | some i => some (i, s)
  | none => allocate s

/-- The entry a reserve makes (R9). -/
def reservedEntry (x : Exchange) (a : Nat) (t : Terms) : Entry :=
  { state := .reserved, origin := some .negotiated, generation := 0,
    identity := some x.identity, incarnation := some x.incarnation, address := some a,
    terms := some t, label := x.label, lease := none, remaining := none, heldCause := none,
    dispute := Dispute.empty }

/-- The causes of a reserve (R151): CREATED and TERMS out of FREE, STATE and TERMS on a target. -/
def reserveCauses (e : Entry) : CauseSet :=
  (if e.state = .free then causeCreated else causeState) ||| causeTerms

/-- The TERMS of an offer (R79). -/
def termsAnswer (s : State) (x : Exchange) (o : Offer) : Answer :=
  .terms x.identity o.turn o.cls o.address o.window o.lease s.phase.params.tickPeriod

/-- Steps 7 and 8 of resolution (R9, R79): reserves the entry, makes the context OFFERED, starts the
agree timer and sends TERMS. -/
def reserveAndOffer (c : CtxNum) (x : Exchange) (i : Index) (a : Nat) (cls : Cls) (window lease : Nat)
    (s : State) : State :=
  let t : Terms := ⟨cls, window, x.groupsPage.getD []⟩
  let o : Offer :=
    { entry := i, cls := cls, address := a, window := window, lease := lease,
      turn := x.lastTurn + 1, deadline := timerEnd s.phase.params.agreeTimeout s }
  let s' := changeEntry i (reservedEntry x a t) (reserveCauses (entry s i)) s
  send Config.anonymous (termsAnswer s x o) (setContext c (some { x with stage := .offered o }) s')

/-- Resolution from step 2 on (R77 to R79), with the target settled again as R75 states. A context
closed here has reserved nothing and changed no entry (R78). -/
def resolveTerms (c : CtxNum) (s : State) : State :=
  match context s c with
  | none => s
  | some x₀ =>
    let x := { x₀ with target := settledTarget s x₀ }
    let p := s.phase.params
    match chosenClass p x with
    | none => closeRefused c .join .noClass s
    | some cls =>
      match chosenAddress s x.target x.hint with
      | none => closeRefused c .join .noAddress s
      | some a =>
        match joinEntry s x.target with
        | none => closeRefused c .join .tableFull (setPart partTableFull s)
        | some (i, s') =>
          if addressHeldByOther s' a i || identityHeldByOther s' x.identity i then
            closeRefused c .join .retry s
          else
            reserveAndOffer c x i a cls (chosenWindow p x cls)
              (clampLease p x.requestedLease x.leaseCap) s'

/-- Hands the answer queue a CHECK for a probe (R94): one more try is used, and the context awaits the
completion of this CHECK. -/
def sendCheck (c : CtxNum) (x : Exchange) (tries : Nat) (a : Nat) (s : State) : State :=
  let token := s.join.nextToken
  let s' :=
    setContext c (some { x with stage := .checking (tries + 1) (.awaiting token) })
      { s with join.nextToken := token + 1 }
  handOver a (.check x.identity) [.context c token] s'

/-- The target against which a join must probe (R76): live, under another incarnation, with probe
needed yes. It is given with its address. -/
def probeTarget (s : State) (x : Exchange) : Option (Index × Nat) :=
  match settledTarget s x with
  | none => none
  | some i =>
    if x.probeNeeded && (entry s i).live && (entry s i).incarnation != some x.incarnation then
      (entry s i).address.map (fun a => (i, a))
    else none

/-- Resolution of a context that has not probed (R75, R76). -/
def resolve (c : CtxNum) (s : State) : State :=
  match context s c with
  | none => s
  | some x =>
    match probeTarget s x with
    | some (i, a) => sendCheck c { x with target := some i } 0 a s
    | none => resolveTerms c s

/-! ### Probe outcomes -/

/-- SAME_STATION and GONE continue resolution at step 2 (R101). This is the outcome GONE given by an
event on entry `i`, if a probe runs against it (R102). -/
def probeGone (i : Index) (s : State) : State :=
  match probing s i with
  | none => s
  | some c => resolveTerms c s

/-- The context's part of DUPLICATE (R100): DUPLICATES is counted and the joiner is refused. -/
def closeDuplicate (c : CtxNum) (s : State) : State :=
  closeUnasked c .duplicate (count .duplicates s)

/-- The outcome DUPLICATE given by a REPLY (R100). -/
def probeDuplicate (i : Index) (c : CtxNum) (s : State) : State := closeDuplicate c (addDuplicate i s)

/-! ### The arbiter (R109) -/

/-- Starts the walk of the FIND at the front of the bus waiting list. -/
def startBus (r : FindRequest) (rest : List FindRequest) (s : State) : State :=
  { s with
    lookup.walk := some (.bus r r.cursor []), lookup.busWaiting := rest,
    lookup.lastStarted := .bus }

/-- Starts the walk of the waiting LOOKUP. -/
def startHost (r : LookupRequest) (s : State) : State :=
  { s with
    lookup.walk := some (.host r r.cursor []), lookup.hostSlot := none,
    lookup.lastStarted := .host }

/-- The arbiter's decision: it starts a walk whenever none is in progress and a request waits, and it
alternates between bus and host when both wait. -/
def arbitrate (s : State) : State :=
  match s.lookup.walk with
  | some _ => s
  | none =>
    match s.lookup.busWaiting, s.lookup.hostSlot with
    | [], none => s
    | r :: rest, none => startBus r rest s
    | [], some h => startHost h s
    | r :: rest, some h =>
      match s.lookup.lastStarted with
      | .bus => startHost h s
      | .host => startBus r rest s

/-! ### Taking a host transaction (R161) -/

/-- The port waits for the release of select after a cold reset that abandoned a transaction (R161). -/
def portWaits (s : State) : Bool := s.host.transaction == .abandoned

/-- A transaction at its code byte is taken, unless the port still waits for the release of select: the
byte is then the abandoned transaction's, and is not taken. -/
def takeTransaction (own : State → State) (s : State) : State := if portWaits s then s else own s

/-! ### Taking a COMMAND (R163) -/

/-- A COMMAND of an engine that is not EXECUTING becomes the command record; an unread result is
discarded and RESULT_LOST set. -/
def accept (f : CommandFrame) (s : State) : State :=
  { s with
    host.engine := .executing ⟨f.tag, f.code, f.params, .atOnce⟩
    host.resultLost := s.host.resultLost || s.host.engine.code == 2
    host.transaction := .none }

/-- The frame is malformed (R163): another command's code or none's, a declared length above 48 or
other than the bytes clocked in, or one that does not suit the command. -/
def malformed (code : Byte) (suits : Nat → Bool) (f : CommandFrame) : Bool :=
  f.code != code || decide (48 < f.length.toNat) || f.length.toNat != f.params.length
    || !suits f.params.length

/-- A COMMAND at the release of select (R163): refused while EXECUTING, and otherwise taken, its frame
examined, and the command handed to its owner in the same event. Where the port waits for that release
(R161), the frame is the abandoned transaction's: it is not taken, and the wait is over (log entry
10). -/
def takeCommand (code : Byte) (suits : Nat → Bool) (f : CommandFrame)
    (body : List Byte → State → State) (s : State) : State :=
  if portWaits s then { s with host.transaction := .none }
  else
    match s.host.engine with
    | .executing _ => { s with host.rejected := true, host.transaction := .none }
    | .idle | .done _ =>
      if malformed code suits f then finish .malformed [] (accept f s)
      else body f.params (accept f s)

/-- A changed phase sets the part cause PHASE in the same event (R137). -/
def enterPhase (p : Phase) (s : State) : State :=
  setPart partPhase { s with phase.phase := p }

/-- The code of the phase now, the data of a phase command's result (R172). -/
def phaseData (s : State) : List Byte := [oneByte s.phase.phase.code]

/-! ### Dispatching a request (R124) -/

/-- The request at the front of the inbound buffer leaves it as its owner takes it. Where the front
request is of another kind, or none waits, this event does not happen (log entry 6). -/
def dispatch (k : ReqKind) (owner : Request → State → State) (s : State) : State :=
  match s.port.inbound with
  | [] => s
  | r :: rest => if r.kind = k then owner r { s with port.inbound := rest } else s

end Sys2Proof.Machine
end

