-- ==== Sys2Proof/Machine/Admission.lean ====
section
/-! DEFINITION. FILTER_PUT, FILTER_REMOVE, FILTER_READ and READ_DEFERRALS (spec/03). -/

namespace Sys2Proof.Machine

/-- FILTER-PUT on being taken: fields, position, room, and then the insertion (R50). -/
def filterPut (p : List Byte) (s : State) : State :=
  let l := s.admission.filter
  let k := (byteAt p 0).toNat
  match readRule p with
  | none => finish .range [] s
  | some r =>
    if l.length < k then finish .range [] s
    else if Config.filterRules ≤ l.length then finish .listFull [] s
    else
      finish .ok [oneByte (l.length + 1)]
        { s with admission.filter := l.take k ++ r :: l.drop k }

/-- FILTER_PUT (R50). -/
def execFilterPut (f : CommandFrame) (s : State) : Host.Outcome State Fault Refusal :=
  .next (takeCommand 0x07 (· == 21) f filterPut s)

/-- FILTER-REMOVE on being taken (R51). -/
def filterRemove (p : List Byte) (s : State) : State :=
  let l := s.admission.filter
  let k := (byteAt p 0).toNat
  if l.length ≤ k then finish .range [] s
  else finish .ok [oneByte (l.length - 1)] { s with admission.filter := l.eraseIdx k }

/-- FILTER_REMOVE (R51). -/
def execFilterRemove (f : CommandFrame) (s : State) : Host.Outcome State Fault Refusal :=
  .next (takeCommand 0x08 (· == 1) f filterRemove s)

/-- Rules as FILTER-READ returns them, each with its position (R173). -/
def rulesFrom : Nat → List FilterRule → List Byte
  | _, [] => []
  | k, r :: rest => ruleBytes k r ++ rulesFrom (k + 1) rest

/-- FILTER-READ on being taken: the count and up to 5 rules from the starting position (R51). -/
def filterRead (p : List Byte) (s : State) : State :=
  let l := s.admission.filter
  let k := (byteAt p 0).toNat
  if l.length < k then finish .range [] s
  else finish .ok (oneByte l.length :: rulesFrom k ((l.drop k).take 5)) s

/-- FILTER_READ (R51). -/
def execFilterRead (f : CommandFrame) (s : State) : Host.Outcome State Fault Refusal :=
  .next (takeCommand 0x09 (· == 1) f filterRead s)

/-- READ-DEFERRALS on being taken: the count and up to 12 records, front first (R58). -/
def readDeferrals (p : List Byte) (s : State) : State :=
  let l := s.admission.deferrals
  let k := (byteAt p 0).toNat
  if l.length < k then finish .range [] s
  else
    finish .ok (oneByte l.length :: (((l.drop k).take 12).map Deferral.bytes).flatten) s

/-- READ_DEFERRALS (R58). -/
def execReadDeferrals (f : CommandFrame) (s : State) : Host.Outcome State Fault Refusal :=
  .next (takeCommand 0x12 (· == 1) f readDeferrals s)

end Sys2Proof.Machine
end

