-- ==== Sys2Proof/Machine/EntryCommands.lean ====
section
/-! DEFINITION. ADD_STATIC, EDIT, REVOKE, CONFIRM_KEEP and CONFIRM_EVICT (spec/11.4 to 11.6). -/

namespace Sys2Proof.Machine

/-- The entry an ADD-STATIC makes (R11, R174). -/
def staticEntry (x : StaticFields) : Entry :=
  { state := .bound, origin := some .static, generation := 0, identity := x.identity,
    incarnation := none, address := some x.address, terms := some x.terms, label := x.label,
    lease := none, remaining := none, heldCause := none, dispute := Dispute.empty }

/-- ADD-STATIC on being taken, its checks in the order of R174. -/
def addStatic (p : List Byte) (s : State) : State :=
  match readStatic p with
  | none => finish .range [] s
  | some x =>
    if (entryAt s x.address).isSome then finish .addressInUse [] s
    else if x.identity.any (fun y => (entryOf s y).isSome) then finish .identityInUse [] s
    else
      match allocate s with
      | none => finish .tableFull [] (setPart partTableFull s)
      | some (i, s') =>
        let t := changeEntry i (staticEntry x) causeCreated s'
        finish .ok ([oneByte i.val] ++ word16Bytes (entry t i).generation) t

/-- ADD_STATIC (R174). -/
def execAddStatic (f : CommandFrame) (s : State) : Host.Outcome State Fault Refusal :=
  .next (takeCommand 0x0A (· == 30) f addStatic s)

/-- The command asks for a notice that cannot be sent: the phase is OFFLINE (R170 check 2). -/
def noticeRefused (notify : Bool) (s : State) : Bool := notify && s.phase.phase == .offline

/-- An EDIT that carries at least one setting. -/
def EditFields.hasSetting (x : EditFields) : Bool :=
  x.cls.isSome || x.window.isSome || x.groups.isSome || x.label.isSome || x.clearLabel
    || x.lease.isSome

/-- The State check of EDIT (R175): live and not LEGACY. -/
def editable (e : Entry) : Bool := e.live && e.origin != some .legacy

/-- The Origin check of EDIT (R175): a lease on a STATIC entry or a label setting on an ADOPTED one
cannot be held there. -/
def cannotHold (x : EditFields) (e : Entry) : Bool :=
  (x.lease.isSome && e.origin == some .static)
    || ((x.label.isSome || x.clearLabel) && e.origin == some .adopted)

/-- The terms after an EDIT: each setting given replaces its field. -/
def editTerms (x : EditFields) (t : Terms) : Terms :=
  ⟨x.cls.getD t.cls, x.window.getD t.window, x.groups.getD t.groups⟩

/-- The entry after an EDIT (R175): a lease setting also sets remaining in BOUND, and the lease alone
in LAPSING. -/
def editEntry (x : EditFields) (e : Entry) : Entry :=
  { e with
    terms := e.terms.map (editTerms x)
    label := if x.clearLabel then none else x.label.or e.label
    lease := x.lease.or e.lease
    remaining := if e.state = .bound then x.lease.or e.remaining else e.remaining }

/-- The GRANT notice of an EDIT (R176), built from the entry after the edit. -/
def grantNotice (s : State) (e : Entry) : Answer :=
  .grant (e.identity.getD 0) (orZero e.address) ((e.terms.map Terms.cls).getD 0)
    (orZero (e.terms.map Terms.window)) (orZero e.lease) s.phase.params.tickPeriod e.generation

/-- EDIT's one change request (R175): TERMS is handed when it carries a setting. -/
def applyEdit (x : EditFields) (s : State) : State :=
  changeEntry x.index (editEntry x (entry s x.index)) (if x.hasSetting then causeTerms else 0) s

/-- EDIT on being taken, its checks in the order of R170 and R175; with notify it waits for its
notice. -/
def edit (p : List Byte) (s : State) : State :=
  match readEdit p with
  | none => finish .range [] s
  | some x =>
    let e := entry s x.index
    if noticeRefused x.notify s then finish .phase [] s
    else if e.generation ≠ x.expected then finish .stale [] s
    else if ¬ editable e then finish .notLive [] s
    else if cannotHold x e then finish .range [] s
    else
      let t := applyEdit x s
      let e' := entry t x.index
      if x.notify then
        handOver (orZero e.address) (grantNotice t e') [.engine]
          (waitFor (.notice x.index e'.generation) t)
      else finish .ok (noticeData x.index e'.generation .none) t

/-- EDIT (R175, R176). -/
def execEdit (f : CommandFrame) (s : State) : Host.Outcome State Fault Refusal :=
  .next (takeCommand 0x0B (· == 26) f edit s)

/-- The end of REVOKE and CONFIRM EVICT after the change (R177, R178): a notice is handed over and
waited for, or the command completes at once; then a probe against the entry concludes GONE. -/
def afterEnding (i : Index) (notify : Bool) (old : Entry) (reason : RevokeReason) (s : State) :
    State :=
  let g := (entry s i).generation
  probeGone i
    (if notify then
      handOver (orZero old.address) (.revoked (old.identity.getD 0) reason) [.engine]
        (waitFor (.notice i g) s)
    else finish .ok (noticeData i g .none) s)

/-- REVOKE on being taken (R170, R177). -/
def revoke (p : List Byte) (s : State) : State :=
  match readEnd p with
  | none => finish .range [] s
  | some x =>
    let e := entry s x.index
    if noticeRefused x.notify s then finish .phase [] s
    else if e.generation ≠ x.expected then finish .stale [] s
    else if ¬ e.live then finish .notLive [] s
    else
      afterEnding x.index x.notify e .host
        (if x.second then freeEntry x.index s else endBinding .revoked x.index s)

/-- REVOKE (R177). -/
def execRevoke (f : CommandFrame) (s : State) : Host.Outcome State Fault Refusal :=
  .next (takeCommand 0x0C (· == 5) f revoke s)

/-- CONFIRM's entry check (R178): BOUND or LAPSING with a dispute present. -/
def confirmable (e : Entry) : Bool := e.live && e.dispute.present

/-- CONFIRM on being taken with action KEEP (R178): every reason is removed and no cause handed. An
action byte other than KEEP's is out of range here; the row of EVICT carries EVICT's. -/
def confirmKeep (p : List Byte) (s : State) : State :=
  match readEnd p with
  | none => finish .range [] s
  | some x =>
    let e := entry s x.index
    if x.second then finish .range [] s
    else if e.generation ≠ x.expected then finish .stale [] s
    else if ¬ confirmable e then finish .notLive [] s
    else
      let t := changeEntry x.index { e with dispute := Dispute.empty } 0 s
      finish .ok (noticeData x.index (entry t x.index).generation .none) t

/-- CONFIRM_KEEP (R178). -/
def execConfirmKeep (f : CommandFrame) (s : State) : Host.Outcome State Fault Refusal :=
  .next (takeCommand 0x0D (· == 5) f confirmKeep s)

/-- CONFIRM on being taken with action EVICT (R178). -/
def confirmEvict (p : List Byte) (s : State) : State :=
  match readEnd p with
  | none => finish .range [] s
  | some x =>
    let e := entry s x.index
    if ¬ x.second then finish .range [] s
    else if noticeRefused x.notify s then finish .phase [] s
    else if e.generation ≠ x.expected then finish .stale [] s
    else if ¬ confirmable e then finish .notLive [] s
    else afterEnding x.index x.notify e .evicted (endBinding .evicted x.index s)

/-- CONFIRM_EVICT (R178). -/
def execConfirmEvict (f : CommandFrame) (s : State) : Host.Outcome State Fault Refusal :=
  .next (takeCommand 0x0D (· == 5) f confirmEvict s)

end Sys2Proof.Machine
end

