-- ==== Sys2Proof/Machine/Lookups.lean ====
section
/-! DEFINITION. LOOKUP, FIND and WALK_EXAMINATION (spec/06). -/

namespace Sys2Proof.Machine

/-- LOOKUP on being taken (R114): its checks, then the host waiting slot and the arbiter. -/
def lookup (p : List Byte) (s : State) : State :=
  match readLookup p with
  | none => finish .range [] s
  | some r => arbitrate { waitFor .walk s with lookup.hostSlot := some r }

/-- LOOKUP (R114). -/
def execLookup (f : CommandFrame) (s : State) : Host.Outcome State Fault Refusal :=
  .next (takeCommand 0x10 (· == 20) f lookup s)

/-- A FIND is taken by the lookup unit (R108): onto the bus waiting list, or answered HOLDOFF with
identity zero and exponent 1 when two wait (R57). -/
def takeFind (r : Request) (s : State) : State :=
  if s.lookup.busWaiting.length < Config.busFinds then
    arbitrate
      { s with lookup.busWaiting := s.lookup.busWaiting ++ [readFind r.source r.payload] }
  else
    send r.source (.holdoff 0 1 s.phase.params.holdoffUnit) (count .holdoffs s)

/-- FIND (R108). -/
def execFind (s : State) : Host.Outcome State Fault Refusal := .next (dispatch .find takeFind s)

/-- The group test: any group, or a group of the entry's list. -/
def groupMatches (group : Nat) (e : Entry) : Bool :=
  group == 255 || e.terms.any (fun t => t.groups.contains group)

/-- The record of a FIND for an entry it matches (R111), or none. -/
def findMatch (r : FindRequest) (e : Entry) : Option FoundRecord :=
  match e.identity with
  | none => none
  | some x =>
    if e.live && (e.leased || e.origin == some .static) && !e.dispute.present
        && maskMatches r.pattern r.mask x && groupMatches r.group e then
      some ⟨x, orZero e.address, (e.terms.map Terms.cls).getD 0, e.generation⟩
    else none

/-- The identity test of a LOOKUP (R114): an entry without an identity passes only a mask of all
zeros. -/
def lookupIdentity (r : LookupRequest) (e : Entry) : Bool :=
  match e.identity with
  | some x => maskMatches r.pattern r.mask x
  | none => r.mask == 0

/-- The record of a LOOKUP for an entry it matches (R114, R115), or none. Under the state filter OCCUPIED
a HELD entry matches, as R114 says, also where its binding ended during the walk, for which R113's table
has every walk match it no more (log entry 28). -/
def lookupMatch (r : LookupRequest) (i : Index) (e : Entry) : Option LookupRecord :=
  if (if r.liveOnly then e.live else e.occupied) && !(r.excludeDisputed && e.dispute.present)
      && lookupIdentity r e && groupMatches r.group e then
    some ⟨i, e.state, e.origin, e.identity, orZero e.address, e.generation, e.dispute⟩
  else none

/-- The result limit of a FIND's walk (R110). -/
def findLimit : Nat := 4

/-- The result limit of a LOOKUP's walk (R110). -/
def lookupLimit : Nat := 8

/-- The next cursor a walk reports after its last examination: 255 after entry 159 (R110). -/
def cursorAfter (i : Index) : Nat := if i.val = 159 then 255 else i.val + 1

/-- The index after `i`; used below 159 only. -/
def nextIndex (i : Index) : Index := Fin.ofNat 160 (i.val + 1)

/-- The data of a LOOKUP's result: cursor, count and records (R115, R116). -/
def lookupData (cursor : Nat) (found : List LookupRecord) : List Byte :=
  [oneByte cursor, oneByte found.length] ++ (found.map LookupRecord.bytes).flatten

/-- One examination of a FIND's walk (R110, R112). -/
def examineBus (r : FindRequest) (i : Index) (found : List FoundRecord) (s : State) : State :=
  let found' := found ++ (findMatch r (entry s i)).toList
  if found'.length = findLimit ∨ i.val = 159 then
    arbitrate (send r.source (.found (cursorAfter i) found') { s with lookup.walk := none })
  else { s with lookup.walk := some (.bus r (nextIndex i) found') }

/-- One examination of a LOOKUP's walk (R110, R115). -/
def examineHost (r : LookupRequest) (i : Index) (found : List LookupRecord) (s : State) : State :=
  let found' := found ++ (lookupMatch r i (entry s i)).toList
  if found'.length = lookupLimit ∨ i.val = 159 then
    arbitrate (finish .ok (lookupData (cursorAfter i) found') { s with lookup.walk := none })
  else { s with lookup.walk := some (.host r (nextIndex i) found') }

/-- WALK_EXAMINATION (R110). With no walk in progress the event does not happen. -/
def execWalkExamination (s : State) : Host.Outcome State Fault Refusal :=
  .next
    (match s.lookup.walk with
    | none => s
    | some (.bus r i found) => examineBus r i found s
    | some (.host r i found) => examineHost r i found s)

end Sys2Proof.Machine
end

