-- ==== Sys2Proof/Machine/HostPort.lean ====
section
/-! DEFINITION. RESULT, RESULT_RELEASE, STATUS and ABORT (spec/10). -/

namespace Sys2Proof.Machine

/-- The filler byte (R186). -/
def fillerByte : Byte := 0xFF

/-- The reply bytes of the host transaction in progress or last taken (R161). -/
def replyBytes (s : State) : List Byte :=
  match s.host.transaction with
  | .result reply _ => reply
  | .status word => [word]
  | .none => []
  | .filler => []
  | .abandoned => []

/-- The byte the port sends for the k-th byte that the host clocks in a transaction: filler during the
code byte, byte 0; then the reply's bytes; then filler (R161, R186). -/
def hostDataOut (s : State) : Nat → Byte
  | 0 => fillerByte
  | k + 1 => (replyBytes s).getD k fillerByte

/-- The level of HDO for the n-th bit of a transaction: each byte goes out most significant bit first
(R186). -/
def hostBitOut (s : State) (n : Nat) : Bool := (hostDataOut s (n / 8)).getMsbD (n % 8)

/-- The reply of a RESULT is fixed: the result record, or the byte NONE (R165). -/
def fixReply (s : State) : State :=
  match s.host.engine with
  | .done r => { s with host.transaction := .result r.bytes true }
  | .idle => { s with host.transaction := .result [noneByte] false }
  | .executing _ => { s with host.transaction := .result [noneByte] false }

/-- RESULT at its code byte (R165), unless the port waits for the release of select (R161). -/
def execResult (s : State) : Host.Outcome State Fault Refusal :=
  .next (takeTransaction fixReply s)

/-- RESULT_RELEASE, the release of select (R165): a result record clocked out in full makes the engine
IDLE; one cut short, or NONE, changes nothing. The release ends any transaction in progress, and with
one that a cold reset abandoned the port's wait (R161; log entry 10). -/
def execResultRelease (clocked : Nat) (s : State) : Host.Outcome State Fault Refusal :=
  .next
    (match s.host.transaction with
    | .result reply isRecord =>
      let s' := { s with host.transaction := .none }
      if isRecord ∧ reply.length ≤ clocked then { s' with host.engine := .idle } else s'
    | .status _ => { s with host.transaction := .none }
    | .filler => { s with host.transaction := .none }
    | .abandoned => { s with host.transaction := .none }
    | .none => s)

/-- A STATUS is taken (R166): the word as it stands; then REJECTED and RESULT_LOST are cleared and the
latched-low flag is set if alive is 0, clear if alive is 1 (R159). -/
def takeStatus (s : State) : State :=
  { s with
    host.transaction := .status (statusWord s)
    host.rejected := false
    host.resultLost := false
    change.latchedLow := !s.port.alive }

/-- STATUS at its code byte (R166), unless the port waits for the release of select (R161). -/
def execStatus (s : State) : Host.Outcome State Fault Refusal :=
  .next (takeTransaction takeStatus s)

/-- The engine leaves the waiters of every message in the queue (R167). -/
def dropEngineWaiter (q : List QueuedMessage) : List QueuedMessage :=
  q.map (fun m => { m with waiters := m.waiters.filter (fun w => w != .engine) })

/-- ABORT of a LOOKUP (R116): out of the slot with its own cursor, or out of its walk with the records
matched so far and the next index. -/
def abortLookup (s : State) : State :=
  match s.lookup.walk, s.lookup.hostSlot with
  | some (.host _ i found), _ =>
    arbitrate (finish .aborted (lookupData i.val found) { s with lookup.walk := none })
  | _, some r =>
    arbitrate (finish .aborted (lookupData r.cursor.val []) { s with lookup.hostSlot := none })
  | _, none => s

/-- ABORT's effect on the engine (R167): it ends a LOOKUP or an EDIT with notify, and nothing else.
EDIT's command code is 0Bh. -/
def abort (s : State) : State :=
  match s.host.engine with
  | .idle => s
  | .done _ => s
  | .executing c =>
    match c.work with
    | .walk => abortLookup s
    | .notice i g =>
      if c.code = 0x0B then
        finish .aborted (noticeData i g .pending)
          { s with port.queue := dropEngineWaiter s.port.queue }
      else s
    | .attemptEnd => s
    | .atOnce => s

/-- ABORT at its code byte (R167), unless the port waits for the release of select (R161). -/
def execAbort (s : State) : Host.Outcome State Fault Refusal :=
  .next (takeTransaction (fun s => abort { s with host.transaction := .filler }) s)

end Sys2Proof.Machine
end

