-- ==== Sys2Proof/Machine/Joining.lean ====
section
/-! DEFINITION. JOIN, EXTEND, AGREE and REPLY as the join unit takes them (spec/04, spec/05.2). -/

namespace Sys2Proof.Machine

/-! ### JOIN -/

/-- NOTED of a turn, to 254. -/
def sendNoted (x : Identity) (turn : Nat) (s : State) : State :=
  send Config.anonymous (.noted x turn) s

/-- A repeat of the JOIN that started an exchange (R66): answered by the context's state, and nothing
in the context changes. -/
def repeatJoin (x : Exchange) (s : State) : State :=
  match x.stage with
  | .collecting _ => sendNoted x.identity 0 s
  | .checking .. => s
  | .offered o => send Config.anonymous (termsAnswer s x o) s

/-- A GRANT of an entry's terms with a lease (R67, R70, R80, R81). -/
def grantAnswer (s : State) (x : Identity) (e : Entry) (lease : Nat) : Answer :=
  .grant x (orZero e.address) ((e.terms.map Terms.cls).getD 0)
    (orZero (e.terms.map Terms.window)) lease s.phase.params.tickPeriod e.generation

/-- The static grant (R67): lease 0. -/
def grantStatic (x : Identity) (i : Index) (s : State) : State :=
  send Config.anonymous (grantAnswer s x (entry s i) 0) (count .grants s)

/-- The GRANT of existing terms (R70): the entry is renewed first. -/
def grantExisting (x : Identity) (i : Index) (requested : Nat) (s : State) : State :=
  let lease := clampLease s.phase.params requested none
  let t := renewEntry i lease s
  send Config.anonymous (grantAnswer t x (entry t i) lease) (count .grants t)

/-- The exchange a JOIN starts (R71). -/
def newExchange (j : JoinFields) (caps : Caps) (target : Option Index) (probe : Bool)
    (stage : Stage) : Exchange :=
  { identity := j.identity, incarnation := j.incarnation, classSet := j.classSet,
    requestedLease := j.lease, hint := j.hint, lastTurn := 0, pagesTaken := 0,
    groupsPage := none, windowRequest := none, label := none, classCap := caps.classes,
    leaseCap := caps.lease, target := target, probeNeeded := probe, stage := stage }

/-- Check 8 (R71): context `c` is taken, its identity leaves the deferral list, and JOINS is counted;
then NOTED with turn 0, or resolution at once. -/
def takeContext (c : CtxNum) (j : JoinFields) (caps : Caps) (target : Option Index) (probe : Bool)
    (s : State) : State :=
  let x := newExchange j caps target probe
    (.collecting (timerEnd s.phase.params.pageTimeout s))
  let t :=
    count .joins
      { setContext c (some x) s with
        admission.deferrals := dropDeferral j.identity s.admission.deferrals }
  if j.more then sendNoted j.identity 0 t else resolve c t

/-- Check 7 (R71). -/
def needContext (j : JoinFields) (caps : Caps) (target : Option Index) (probe : Bool) (s : State) :
    State :=
  if s.phase.phase = .suspended then refuse Config.anonymous j.identity .join .suspended s
  else
    match lowestIdle s with
    | none => holdoff j.identity s
    | some c => takeContext c j caps target probe s

/-- Check 6 (R69): the entry of the identity. -/
def joinMeetsEntry (j : JoinFields) (caps : Caps) (s : State) : State :=
  match entryOf s j.identity with
  | none => needContext j caps none false s
  | some i =>
    let e := entry s i
    if e.live then
      if e.dispute.duplicate then refuse Config.anonymous j.identity .join .duplicate s
      else if e.incarnation = some j.incarnation then
        if j.more then needContext j caps (some i) false s
        else grantExisting j.identity i j.lease s
      else needContext j caps (some i) true s
    else needContext j caps (some i) false s

/-- Checks 4 and 5 (R67, R68). -/
def admitJoin (j : JoinFields) (s : State) : State :=
  match (entryOf s j.identity).filter (fun i => (entry s i).origin == some .static) with
  | some i => grantStatic j.identity i s
  | none =>
    match verdict s j.identity with
    | none => refuse Config.anonymous j.identity .join .admission s
    | some caps => joinMeetsEntry j caps s

/-- A JOIN is taken: its source, and checks 1 to 3 (R64 to R66); a context of an earlier incarnation
is closed silently. -/
def takeJoin (r : Request) (s : State) : State :=
  let j := readJoin r.payload
  if r.source ≠ Config.anonymous then refuse Config.anonymous j.identity .join .malformed s
  else if s.phase.phase = .settling then holdoff j.identity s
  else if ¬ joinContentOk r.payload then refuse Config.anonymous j.identity .join .malformed s
  else
    match contextOf s j.identity with
    | none => admitJoin j s
    | some c =>
      match context s c with
      | none => s
      | some x =>
        if x.incarnation = j.incarnation then repeatJoin x s else admitJoin j (closeContext c s)

/-- JOIN (R64). -/
def execJoin (s : State) : Host.Outcome State Fault Refusal := .next (dispatch .join takeJoin s)

/-! ### EXTEND -/

/-- A page taken into an exchange; a page of a kind already taken replaces it (R72). -/
def Exchange.takePage (x : Exchange) : Page → Exchange
  | .groups g => { x with groupsPage := some g }
  | .window w => { x with windowRequest := some w }
  | .label l => { x with label := some l }

/-- An EXTEND of turn L + 1 (R73 case 1). -/
def newPage (c : CtxNum) (x : Exchange) (turn : Nat) (more : Bool) (page : Option Page) (s : State) :
    State :=
  match page with
  | none => closeRefused c .extend .malformed s
  | some g =>
    if x.pagesTaken = Config.maxPages then closeRefused c .extend .pages s
    else
      let y :=
        { x.takePage g with
          pagesTaken := x.pagesTaken + 1, lastTurn := turn,
          stage := .collecting (timerEnd s.phase.params.pageTimeout s) }
      let t := sendNoted x.identity turn (setContext c (some y) s)
      if more then t else resolve c t

/-- An EXTEND judged by its turn against the identity's context (R73, R74). -/
def extendContext (c : CtxNum) (x : Exchange) (p : List Byte) (s : State) : State :=
  let turn := (byteAt p 8).toNat
  match x.stage with
  | .collecting _ =>
    if turn = x.lastTurn + 1 then newPage c x turn (flagAt p 9) (readPage p) s
    else if turn = x.lastTurn then sendNoted x.identity turn s
    else closeRefused c .extend .sequence s
  | .checking .. => if turn = x.lastTurn then s else closeRefused c .extend .sequence s
  | .offered o =>
    if turn = x.lastTurn then send Config.anonymous (termsAnswer s x o) s
    else closeRefused c .extend .sequence s

/-- An EXTEND is taken: its source, its least length, and its identity's context (R64, R73, R74,
R185). -/
def takeExtend (r : Request) (s : State) : State :=
  let id := payloadIdentity r.payload
  if r.source ≠ Config.anonymous then refuse Config.anonymous id .extend .malformed s
  else if r.payload.length < 12 then refuse Config.anonymous id .extend .malformed s
  else
    match contextOf s id with
    | none => refuse Config.anonymous id .extend .sequence s
    | some c =>
      match context s c with
      | none => s
      | some x => extendContext c x r.payload s

/-- EXTEND (R73). -/
def execExtend (s : State) : Host.Outcome State Fault Refusal :=
  .next (dispatch .extend takeExtend s)

/-! ### AGREE -/

/-- The entry a bind makes (R10). -/
def boundEntry (e : Entry) (lease : Nat) : Entry :=
  { e with
    state := .bound, origin := some .negotiated, lease := some lease, remaining := some lease }

/-- An accepted offer (R10, R80): the bind, the context IDLE, and GRANT with the generation after the
bind. Where the entry is no longer RESERVED the table refuses the bind and leaves it, and the AGREE is
answered as one that finds no offer (log entry 8; no reachable state is one). -/
def bindOffer (c : CtxNum) (x : Exchange) (o : Offer) (s : State) : State :=
  if (entry s o.entry).state = .reserved then
    let t := changeEntry o.entry (boundEntry (entry s o.entry) o.lease) causeState s
    let u := count .grants (setContext c none t)
    send Config.anonymous
      (.grant x.identity o.address o.cls o.window o.lease s.phase.params.tickPeriod
        (entry t o.entry).generation) u
  else refuse Config.anonymous x.identity .agree .sequence (setContext c none s)

/-- An AGREE against an OFFERED context, judged in the order of R80. -/
def judgeAgree (c : CtxNum) (x : Exchange) (o : Offer) (p : List Byte) (s : State) : State :=
  if ¬ flagAt p 9 then send Config.anonymous (.closed x.identity) (closeContext c s)
  else if (byteAt p 8).toNat ≠ o.turn then closeRefused c .agree .sequence s
  else if (byteAt p 10).toNat ≠ o.cls.val then closeRefused c .agree .malformed s
  else bindOffer c x o s

/-- An AGREE whose identity no context holds (R81): GRANT again where the entry of the identity is
BOUND, NEGOTIATED and of the echoed class; nothing changes and GRANTS is not counted. -/
def lateAgree (id : Identity) (p : List Byte) (s : State) : State :=
  match entryOf s id with
  | none => refuse Config.anonymous id .agree .sequence s
  | some i =>
    let e := entry s i
    if flagAt p 9 && e.state == .bound && e.origin == some .negotiated
        && e.terms.any (fun t => t.cls.val == (byteAt p 10).toNat) then
      send Config.anonymous (grantAnswer s id e (orZero e.lease)) s
    else refuse Config.anonymous id .agree .sequence s

/-- An AGREE is taken (R64, R80, R81). -/
def takeAgree (r : Request) (s : State) : State :=
  let p := r.payload
  let id := payloadIdentity p
  if r.source ≠ Config.anonymous then refuse Config.anonymous id .agree .malformed s
  else if p.length ≠ 11 ∨ 7 < (byteAt p 10).toNat then
    refuse Config.anonymous id .agree .malformed s
  else
    match contextOf s id with
    | none => lateAgree id p s
    | some c =>
      match context s c with
      | none => s
      | some x =>
        match x.stage with
        | .offered o => judgeAgree c x o p s
        | .collecting _ => closeRefused c .agree .sequence s
        | .checking .. => closeRefused c .agree .sequence s

/-- AGREE (R80). -/
def execAgree (s : State) : Host.Outcome State Fault Refusal := .next (dispatch .agree takeAgree s)

/-! ### REPLY -/

/-- A REPLY from the probed address under another identity (R98): the collision is recorded and the
joiner is held off. -/
def replyStranger (i : Index) (c : CtxNum) (x : Exchange) (s : State) : State :=
  holdoff x.identity (closeContext c (addCollision i s))

/-- A REPLY that matches context `c`, whose probe runs against entry `i` (R97, R98). -/
def judgeReply (i : Index) (c : CtxNum) (x : Exchange) (p : List Byte) (s : State) : State :=
  if (entry s i).identity ≠ some (payloadIdentity p) then replyStranger i c x s
  else if (entry s i).incarnation = some (word16At p 8) then probeDuplicate i c s
  else if x.incarnation = word16At p 8 then resolveTerms c s
  else probeDuplicate i c s

/-- A REPLY that meets entry `i` under no probe: where it is the late answer of the holder that lost the
entry to its present binding, that it came is recorded, and nothing else changes (R99, R103, log
entry 27). -/
def noteLateReply (i : Index) (p : List Byte) (s : State) : State :=
  let e := entry s i
  if e.identity = some (payloadIdentity p) ∧ e.superseded.map Superseded.holder = some (word16At p 8) then
    rememberHolder i (some ⟨word16At p 8, true⟩) s
  else s

/-- A REPLY is taken (R97 to R99): one that matches no CHECKING context counts STRAYS. -/
def takeReply (r : Request) (s : State) : State :=
  match entryAt s r.source with
  | none => count .strays s
  | some i =>
    match probing s i with
    | none => count .strays (noteLateReply i r.payload s)
    | some c =>
      match context s c with
      | none => s
      | some x => judgeReply i c x r.payload s

/-- REPLY (R97). -/
def execReply (s : State) : Host.Outcome State Fault Refusal := .next (dispatch .reply takeReply s)

end Sys2Proof.Machine
end

