-- ==== Sys2Proof/Machine/Phases.lean ====
section
/-! DEFINITION. CONFIGURE, READ_PARAMETER, ENABLE, SUSPEND, RESUME and the settle expiry (spec/08). -/

namespace Sys2Proof.Machine

/-- Test 1 of R148: a setting that names no parameter, or a parameter named twice. -/
def badNames (l : List Setting) : Bool :=
  l.any (fun x => x.param.isNone) || !decide (l.map Setting.param).Nodup

/-- Test 2 of R148: an O parameter outside OFFLINE. -/
def badPhase (s : State) (l : List Setting) : Bool :=
  s.phase.phase != .offline && l.any (fun x => x.param.any Param.offlineOnly)

/-- All settings applied (R148 step 4). -/
def applySettings (p : Params) (l : List Setting) : Params :=
  l.foldl (fun p x => match x.param with | some k => p.put x.value k | none => p) p

/-- Test 3 of R148: a value out of its range, or a pair inverted after the command. -/
def badValues (p : Params) (l : List Setting) : Bool :=
  let after := applySettings p l
  l.any (fun x => x.param.any (fun k => !Param.inRange x.value k))
    || decide (after.grantHigh < after.grantLow) || decide (after.maxLease < after.minLease)

/-- CONFIGURE on being taken (R148). Bit times of quiet already counted keep their count under a new
bus rate (R133). -/
def configure (p : List Byte) (s : State) : State :=
  let l := readSettings p
  if badNames l then finish .range [] s
  else if badPhase s l then finish .phase [] s
  else if badValues s.phase.params l then finish .range [] s
  else
    let params := applySettings s.phase.params l
    let s' := { s with phase.params := params }
    if params.busRate = s.phase.params.busRate then finish .ok [] s'
    else
      finish .ok [] { s' with port.quietCarried := quietBits s, port.quietFrom := s.now }

/-- CONFIGURE (R148). Its parameters are 1..9 settings of five bytes (R186). -/
def execConfigure (f : CommandFrame) (s : State) : Host.Outcome State Fault Refusal :=
  .next (takeCommand 0x01 (fun n => n % 5 == 0 && decide (5 ≤ n ∧ n ≤ 45)) f configure s)

/-- READ-PARAMETER on being taken (R171). -/
def readParameter (p : List Byte) (s : State) : State :=
  match Param.ofNumber (byteAt p 0).toNat with
  | none => finish .range [] s
  | some k => finish .ok (beBytes 4 (s.phase.params.get k)) s

/-- READ_PARAMETER (R171). -/
def execReadParameter (f : CommandFrame) (s : State) : Host.Outcome State Fault Refusal :=
  .next (takeCommand 0x02 (· == 1) f readParameter s)

/-- The length of a period of the lease clock, in microseconds (R25). -/
def tickLength (s : State) : Nat := s.phase.params.tickPeriod * Config.unit50ms

/-- ENABLE's change (R138): a full period starts, and the phase becomes SETTLING with the settle timer
started, or ACTIVE when settle ticks is 0. -/
def startPart (s : State) : State :=
  let s' := { s with lease.nextTick := some (s.now + tickLength s) }
  if s.phase.params.settle = 0 then enterPhase .active s'
  else enterPhase .settling { s' with phase.settle := some s.phase.params.settle }

/-- ENABLE on being taken: refused PHASE outside OFFLINE (R137). -/
def enable (s : State) : State :=
  if s.phase.phase = .offline then finish .ok (phaseData (startPart s)) (startPart s)
  else finish .phase [] s

/-- ENABLE (R138). -/
def execEnable (f : CommandFrame) (s : State) : Host.Outcome State Fault Refusal :=
  .next (takeCommand 0x03 (· == 0) f (fun _ => enable) s)

/-- A context is COLLECTING. -/
def collectingNow (s : State) (c : CtxNum) : Bool :=
  (context s c).any (fun x => match x.stage with
    | .collecting _ => true
    | .checking .. => false
    | .offered _ => false)

/-- Closes every COLLECTING context with REFUSE(SUSPENDED), in ascending order (R84, R140). -/
def closeCollecting (s : State) : State :=
  (List.finRange 8).foldl
    (fun s c => if collectingNow s c then closeUnasked c .suspended s else s) s

/-- SUSPEND on being taken (R140). -/
def suspend (s : State) : State :=
  if s.phase.phase = .active then
    finish .ok [oneByte (Phase.code .suspended)] (closeCollecting (enterPhase .suspended s))
  else finish .phase [] s

/-- SUSPEND (R140). -/
def execSuspend (f : CommandFrame) (s : State) : Host.Outcome State Fault Refusal :=
  .next (takeCommand 0x05 (· == 0) f (fun _ => suspend) s)

/-- RESUME on being taken (R141). -/
def resume (s : State) : State :=
  if s.phase.phase = .suspended then
    finish .ok [oneByte (Phase.code .active)] (enterPhase .active s)
  else finish .phase [] s

/-- RESUME (R141). -/
def execResume (f : CommandFrame) (s : State) : Host.Outcome State Fault Refusal :=
  .next (takeCommand 0x06 (· == 0) f (fun _ => resume) s)

/-- SETTLE_EXPIRY (R139): the tick that brings the settle timer to 0 is taken by phase control, and
the phase becomes ACTIVE. Without such a tick the expiry does not happen. -/
def execSettleExpiry (s : State) : Host.Outcome State Fault Refusal :=
  .next
    (if s.phase.phase = .settling ∧ s.phase.settleOwed then
      enterPhase .active { s with phase.settle := none, phase.settleOwed := false }
    else s)

end Sys2Proof.Machine
end

