-- ==== Sys2Proof/Machine/Lease.lean ====
section
/-! DEFINITION. LEASE_TICK and the four expiries of entries (spec/02.1, spec/02.2). -/

namespace Sys2Proof.Machine

/-! ### Count-downs (R26)

A tick hands one count-down to every timed entry. An entry takes at once the count-downs that leave its
remaining time above 0. The one that would bring it to 0 is taken, with the expiry, by the expiry event
of the entry's state (log entry 7). -/

/-- The count-downs an entry takes at once when `owed` are handed to it: all that leave remaining at
least 1. -/
def countDowns (e : Entry) (owed : Nat) : Nat := min owed (orZero e.remaining - 1)

/-- An entry after `n` count-downs that do not expire it: only remaining changes. -/
def Entry.countedDown (e : Entry) (n : Nat) : Entry :=
  { e with remaining := e.remaining.map (· - n) }

/-- The entry after a tick has handed it a count-down. -/
def tickedEntry (e : Entry) (owed : Nat) : Entry :=
  if e.timed then e.countedDown (countDowns e (owed + 1)) else e

/-- The count-downs an entry still owes after a tick. An entry that is not timed owes none. -/
def tickedOwed (e : Entry) (owed : Nat) : Nat :=
  if e.timed then owed + 1 - countDowns e (owed + 1) else 0

/-- The tick at the settle timer (R139): it is lowered by 1, and the tick that would bring it to 0 is
left for the settle expiry. -/
def tickSettle (s : State) : State :=
  if s.phase.phase = .settling then
    match s.phase.settle with
    | none => s
    | some n =>
      if 1 < n then { s with phase.settle := some (n - 1) }
      else { s with phase.settleOwed := true }
  else s

/-- LEASE_TICK (R25, R26): the next period starts, every timed entry receives a count-down, and in
SETTLING the settle timer does. With the clock stopped no tick falls. -/
def execLeaseTick (s : State) : Host.Outcome State Fault Refusal :=
  .next
    (match s.lease.nextTick with
    | none => s
    | some t =>
      tickSettle
        { advanceTo t s with
          table.entries :=
            Vector.ofFn (fun i => tickedEntry s.table.entries[i] s.lease.owed[i])
          lease.owed := Vector.ofFn (fun i => tickedOwed s.table.entries[i] s.lease.owed[i])
          lease.nextTick := some (t + tickLength s) })

/-! ### Expiries (R27 to R30) -/

/-- An entry takes one of the count-downs it owes. -/
def takeOwed (i : Index) (s : State) : State :=
  { s with lease.owed := s.lease.owed.set i (s.lease.owed[i] - 1) }

/-- A count-down that only lowers remaining: neither generation nor causes change (R26). -/
def lowerRemaining (i : Index) (s : State) : State :=
  { s with table.entries := s.table.entries.set i ((entry s i).countedDown 1) }

/-- The expiry event of an entry in the state that `own` tests. The entry takes the count-down it owes:
the expiry is made when remaining was 1 and the entry is in that state. Where another change request
was taken first, the count-down meets the entry as that left it (R20, R26, R40): it lowers a higher
remaining by 1, passes by an entry that is not timed, and is left to the expiry of another state when
remaining is 1 there. With no count-down owed the event does not happen. -/
def expiryEvent (own : Entry → Bool) (expire : Index → State → State) (i : Index) (s : State) :
    State :=
  let e := entry s i
  if s.lease.owed[i] = 0 then s
  else if ¬ e.timed then takeOwed i s
  else if 1 < orZero e.remaining then lowerRemaining i (takeOwed i s)
  else if own e then expire i (takeOwed i s)
  else s

/-- The expiry of a BOUND leased entry (R27): LAPSING with grace ticks, or on through LAPSING when
grace ticks is 0, and then a probe against it concludes GONE. LAPSES is counted once. -/
def expireBound (i : Index) (s : State) : State :=
  let t := count .lapses s
  if s.phase.params.grace = 0 then probeGone i (holdEntry .expired i t)
  else
    changeEntry i
      { entry s i with state := .lapsing, remaining := some s.phase.params.grace } causeState t

/-- BOUND_EXPIRY (R27). -/
def execBoundExpiry (i : Index) (s : State) : Host.Outcome State Fault Refusal :=
  .next (expiryEvent (fun e => e.leased && e.state == .bound) expireBound i s)

/-- LAPSING_EXPIRY (R28): HELD with cause EXPIRED, or FREE when hold ticks is 0; a probe concludes
GONE. -/
def execLapsingExpiry (i : Index) (s : State) : Host.Outcome State Fault Refusal :=
  .next
    (expiryEvent (fun e => e.leased && e.state == .lapsing)
      (fun i s => probeGone i (holdEntry .expired i s)) i s)

/-- HELD_EXPIRY (R29). -/
def execHeldExpiry (i : Index) (s : State) : Host.Outcome State Fault Refusal :=
  .next (expiryEvent (fun e => e.leased && e.state == .held) freeEntry i s)

/-- LEGACY_SILENCE_EXPIRY (R30). -/
def execLegacySilenceExpiry (i : Index) (s : State) : Host.Outcome State Fault Refusal :=
  .next
    (expiryEvent (fun e => e.origin == some .legacy && e.state == .bound) freeEntry i s)

end Sys2Proof.Machine
end

