-- ==== Sys2Proof/Machine/Reads.lean ====
section
/-! DEFINITION. READ_ENTRY, FIND_ADDRESS, READ_CONTEXT, NEXT_CHANGE, READ_COUNTERS and
INTERRUPT_SETUP (spec/09, spec/11.7). -/

namespace Sys2Proof.Machine

/-- READ-ENTRY on being taken (R179). -/
def readEntry (p : List Byte) (s : State) : State :=
  match readIndex p 0 with
  | none => finish .range [] s
  | some i => finish .ok (oneByte i.val :: entryRecord (entry s i)) s

/-- READ_ENTRY (R179). -/
def execReadEntry (f : CommandFrame) (s : State) : Host.Outcome State Fault Refusal :=
  .next (takeCommand 0x0E (· == 1) f readEntry s)

/-- FIND-ADDRESS on being taken (R117). -/
def findAddress (p : List Byte) (s : State) : State :=
  let a := (byteAt p 0).toNat
  if a = 0 ∨ Config.maxAddress < a then finish .range [] s
  else
    match entryAt s a with
    | none => finish .noEntry [] s
    | some i => finish .ok (oneByte i.val :: entryRecord (entry s i)) s

/-- FIND_ADDRESS (R117). -/
def execFindAddress (f : CommandFrame) (s : State) : Host.Outcome State Fault Refusal :=
  .next (takeCommand 0x0F (· == 1) f findAddress s)

/-- READ-CONTEXT on being taken (R180). -/
def readContext (p : List Byte) (s : State) : State :=
  let n := (byteAt p 0).toNat
  if h : n < 8 then finish .ok (contextRecord s.now (context s ⟨n, h⟩)) s
  else finish .range [] s

/-- READ_CONTEXT (R180). -/
def execReadContext (f : CommandFrame) (s : State) : Host.Outcome State Fault Refusal :=
  .next (takeCommand 0x11 (· == 1) f readContext s)

/-- The lowest-indexed entry that has causes (R153). -/
def firstChanged (s : State) : Option Index :=
  (List.finRange 160).find? (fun i => s.change.entryCauses[i] != 0)

/-- Something is pending: the more flag after a clearing (R153). -/
def changesPending (s : State) : Bool := (firstChanged s).isSome || s.change.partCauses != 0

/-- A cause set as its byte; the bits 7 to 5, which R186 does not name, are returned as 0 (log entry 31). -/
def causeByte (c : CauseSet) : Byte := c.setWidth 8

/-- A flag as a byte of a result. -/
def flagByte (b : Bool) : Byte := if b then 1 else 0

/-- NEXT-CHANGE on being taken (R153): an entry's causes, or else the part causes, or else NONE. -/
def nextChange (s : State) : State :=
  match firstChanged s with
  | some i =>
    let t := { s with change.entryCauses := s.change.entryCauses.set i 0 }
    finish .ok
      ([1, flagByte (changesPending t), oneByte i.val, causeByte s.change.entryCauses[i]]
        ++ entryRecord (entry s i)) t
  | none =>
    if s.change.partCauses = 0 then finish .ok [0, 0] s
    else
      finish .ok [2, 0, causeByte s.change.partCauses] { s with change.partCauses := 0 }

/-- NEXT_CHANGE (R153). -/
def execNextChange (f : CommandFrame) (s : State) : Host.Outcome State Fault Refusal :=
  .next (takeCommand 0x13 (· == 0) f (fun _ => nextChange) s)

/-- The twelve counters, two bytes each, in the order of R154. -/
def counterBytes (s : State) : List Byte := (s.change.counters.toList.map (beBytes 2)).flatten

/-- READ-COUNTERS on being taken (R156): the counters, cleared in the same event when asked. A clear
option other than 0 and 1 gives RANGE, as R186 has it for every option byte, though R181 lists no refusal
(log entry 25). -/
def readCounters (p : List Byte) (s : State) : State :=
  match readOption p 0 with
  | none => finish .range [] s
  | some clear =>
    finish .ok (counterBytes s)
      (if clear then { s with change.counters := Vector.replicate 12 0 } else s)

/-- READ_COUNTERS (R156). -/
def execReadCounters (f : CommandFrame) (s : State) : Host.Outcome State Fault Refusal :=
  .next (takeCommand 0x14 (· == 1) f readCounters s)

/-- A byte names causes of its kind alone: bits 7..5 are clear (R157, R186). -/
def causeSetOk (b : Byte) : Bool := decide (b.toNat < 32)

/-- INTERRUPT-SETUP on being taken (R157): the three enables are replaced in one event. A master option
other than 0 and 1 gives RANGE, as R186 has it, though R157 and R181 name the sets alone (log
entry 25). -/
def interruptSetup (p : List Byte) (s : State) : State :=
  match readOption p 0 with
  | none => finish .range [] s
  | some m =>
    let e := byteAt p 1
    let q := byteAt p 2
    if causeSetOk e && causeSetOk q then
      finish .ok [flagByte m, e, q]
        { s with
          change.master := m, change.entryEnable := e.setWidth 5,
          change.partEnable := q.setWidth 5 }
    else finish .range [] s

/-- INTERRUPT_SETUP (R157). -/
def execInterruptSetup (f : CommandFrame) (s : State) : Host.Outcome State Fault Refusal :=
  .next (takeCommand 0x15 (· == 3) f interruptSetup s)

end Sys2Proof.Machine
end

