-- ==== Sys2Proof/Machine/Receiving.lean ====
section
/-! DEFINITION. RECEIVE_MESSAGE: the frame, segment-alive, the observer's report, classification and the
inbound buffer (spec/05.1, spec/07.1, spec/07.2). -/

namespace Sys2Proof.Machine

/-! ### The observer's report (R86) -/

/-- The entry a learn-legacy request makes (R11). -/
def legacyEntry (a silence : Nat) : Entry :=
  { state := .bound, origin := some .legacy, generation := 0, identity := none,
    incarnation := none, address := some a, terms := none, label := none, lease := none,
    remaining := some silence, heldCause := none, dispute := Dispute.empty }

/-- A learn-legacy request (R11, R87): the lowest FREE entry, without reclaim. -/
def learn (a : Nat) (s : State) : State :=
  match lowestFree s with
  | none => setPart partTableFull s
  | some i => changeEntry i (legacyEntry a s.phase.params.legacySilence) causeCreated s

/-- Learning where the legacy learning parameter is on (R87, R92). -/
def learnIfOn (a : Nat) (s : State) : State := if s.phase.params.legacyLearning then learn a s else s

/-- A report with the bound flag clear at a BOUND or LAPSING entry (R88). -/
def reportLive (i : Index) (s : State) : State :=
  let e := entry s i
  match e.origin with
  | some .legacy =>
    changeEntry i { e with remaining := some s.phase.params.legacySilence } 0 s
  | some .static => if e.identity.isSome then addCollision i s else s
  | some .negotiated => addCollision i s
  | some .adopted => addCollision i s
  | none => s

/-- A report with the bound flag clear at a RESERVED entry (R89): the context closes with
REFUSE(RETRY) and its offer is withdrawn; then the address is learned. -/
def reportReserved (i : Index) (a : Nat) (s : State) : State :=
  learnIfOn a
    (match offeringOf s i with
    | some c => closeUnasked c .retry s
    | none => withdraw i s)

/-- A report with the bound flag clear at a HELD entry (R90). -/
def reportHeld (i : Index) (a : Nat) (s : State) : State :=
  if s.phase.params.legacyLearning then learn a (freeEntry i s) else s

/-- A report with the bound flag clear (R87 to R90). -/
def reportClear (a : Nat) (s : State) : State :=
  match entryAt s a with
  | none => learnIfOn a s
  | some i =>
    match (entry s i).state with
    | .free => s
    | .reserved => reportReserved i a s
    | .bound => reportLive i s
    | .lapsing => reportLive i s
    | .held => reportHeld i a s

/-- A report with the bound flag set (R91): STRAYS is counted outside SETTLING where no entry, or a
LEGACY entry, holds the address. -/
def reportSet (a : Nat) (s : State) : State :=
  if s.phase.phase = .settling then s
  else
    match entryAt s a with
    | none => count .strays s
    | some i => if (entry s i).origin = some .legacy then count .strays s else s

/-- The observer's report of a valid message (R85): of a source in 1..239 alone. -/
def observe (source : Nat) (bound : Bool) (s : State) : State :=
  if 1 ≤ source ∧ source ≤ Config.maxAddress then
    if bound then reportSet source s else reportClear source s
  else s

/-! ### Classification (R121 to R123) -/

/-- A request offered to the inbound buffer (R123). -/
def offerRequest (r : Request) (s : State) : State :=
  if s.port.inbound.length < Config.inboundRequests then
    { s with port.inbound := s.port.inbound ++ [r] }
  else setPart partQueueDrop (count .inboundDrops s)

/-- A request addressed to the directory: a content error is answered REFUSE(MALFORMED) at once, and
any other request is offered to the buffer (R122). -/
def takeRequest (r : Request) (s : State) : State :=
  if contentOk r.kind r.payload then offerRequest r s
  else refuse r.source (malformedIdentity r.kind r.payload) r.kind .malformed s

/-- Step 3 of R121. -/
def classify (m : Heard) (s : State) : State :=
  if m.source = Config.directory then count .strays s
  else
    match requestOfCode m.kind with
    | none => count .strays s
    | some k =>
      if m.destination = Config.directory then takeRequest ⟨m.source, m.bound, k, m.payload⟩ s
      else s

/-- A valid message refreshes segment-alive (R132). -/
def refreshAlive (s : State) : State :=
  { s with
    port.alive := true
    port.silence := some (s.now + s.phase.params.segmentSilence * Config.unit50ms) }

/-- A valid message (R121): segment-alive in every phase; the report and the classification outside
OFFLINE. -/
def takeValid (m : Heard) (s : State) : State :=
  let s' := refreshAlive s
  if s'.phase.phase = .offline then s' else classify m (observe m.source m.bound s')

/-- Carrier falls: the quiet time runs from now, unless the part itself is sending (R128). -/
def carrierFalls (s : State) : State :=
  let s' := { s with port.carrier := false, port.overlapped := false }
  if attemptUnderWay s then s' else { s' with port.quietFrom := s.now, port.quietCarried := 0 }

/-- An attempt that survived PORT-RESTART is under way (R135): the phase stays as it was. One that
survived DISABLE goes on in OFFLINE (R134). -/
def restartSurvived (s : State) : Bool :=
  attemptUnderWay s && s.port.surviving && s.phase.phase != .offline

/-- A station's request addressed to the directory: row 3 of R121. -/
def directoryRequest (m : Heard) : Bool :=
  m.source != Config.directory && (requestOfCode m.kind).isSome && m.destination == Config.directory

/-- RECEIVE_MESSAGE (R120): what is heard during an own attempt, or in a carrier period that overlaps
one, is discarded whole; a frame error is counted; a valid message is handled by R121. A request to the
directory that arrives during an attempt that survived PORT-RESTART is handled by R121 too (R135); all
else heard then is discarded as in any other attempt (log entry 24). -/
def execReceiveMessage (bytes : List Byte) (extraBits : Nat) (s : State) :
    Host.Outcome State Fault Refusal :=
  .next
    (match readFrame bytes extraBits with
    | none =>
      if attemptUnderWay s || s.port.overlapped then carrierFalls s
      else count .badMessages (carrierFalls s)
    | some m =>
      if restartSurvived s && directoryRequest m then takeValid m (carrierFalls s)
      else if attemptUnderWay s || s.port.overlapped then carrierFalls s
      else takeValid m (carrierFalls s))

end Sys2Proof.Machine
end

