-- ==== Sys2Proof/Machine/Renewal.lean ====
section
/-! DEFINITION. KEEP and LEAVE, with adoption (spec/02.4, spec/02.5, spec/08.2). -/

namespace Sys2Proof.Machine

/-! ### Adoption -/

/-- The entry an adoption makes (R11, R145). -/
def adoptedEntry (k : KeepFields) (source lease : Nat) : Entry :=
  { state := .bound, origin := some .adopted, generation := 0, identity := some k.identity,
    incarnation := some k.incarnation, address := some source,
    terms := some ⟨k.cls, k.window, k.groups⟩, label := none, lease := some lease,
    remaining := some lease, heldCause := none, dispute := Dispute.empty }

/-- The verdict lets the KEEP's class be adopted (R48), with the lease cap it carries. -/
def adoptionCaps (s : State) (k : KeepFields) : Option Caps :=
  (verdict s k.identity).filter (fun caps => inClassSet caps.classes k.cls.val)

/-- The adoption itself (R145): KEPT with the clamped lease, and RENEWALS counted. -/
def adoptInto (i : Index) (k : KeepFields) (source lease : Nat) (s : State) : State :=
  let t := changeEntry i (adoptedEntry k source lease) (causeCreated ||| causeTerms) s
  send source (.kept k.identity lease (entry t i).generation) (count .renewals t)

/-- A KEEP that meets no entry in SETTLING: the tests of R144 in order, and the adoption. -/
def adopt (k : KeepFields) (source : Nat) (s : State) : State :=
  if ¬ (1 ≤ source ∧ source ≤ Config.maxAddress) ∨ ¬ s.phase.params.adoption
      ∨ (entryOf s k.identity).isSome then refuse source k.identity .keep .rejoin s
  else
    match adoptionCaps s k with
    | none => refuse source k.identity .keep .rejoin s
    | some caps =>
      if ¬ inClassSet s.phase.params.offered k.cls.val then
        refuse source k.identity .keep .rejoin s
      else
        match allocate s with
        | none => refuse source k.identity .keep .tableFull (setPart partTableFull s)
        | some (i, t) =>
          adoptInto i k source (clampLease s.phase.params k.lease caps.lease) t

/-! ### KEEP -/

/-- A matching KEEP of a leased entry that no probe runs against (R34). -/
def keepRenews (i : Index) (k : KeepFields) (source : Nat) (s : State) : State :=
  let lease := clampLease s.phase.params k.lease none
  let t := count .renewals (renewEntry i lease s)
  send source (.kept k.identity lease (entry t i).generation) t

/-- A matching KEEP of an entry under probe (R34, R100, R102): renewal and DUPLICATE_IDENTITY in one
change request, KEPT first, and then the joiner's REFUSE. -/
def keepDuplicates (i : Index) (c : CtxNum) (k : KeepFields) (source : Nat) (s : State) : State :=
  let lease := clampLease s.phase.params k.lease none
  let e := entry s i
  let causes := renewCauses e ||| (if e.dispute.duplicate then 0 else causeDispute)
  let t :=
    count .renewals
      (changeEntry i
        { e.renewed lease with dispute := { e.dispute with duplicate := true } } causes s)
  closeDuplicate c (send source (.kept k.identity lease (entry t i).generation) t)

/-- The KEEP is of the holder that answered its CHECK too late and so lost entry `i` to the binding it now
has (R103, log entry 27). -/
def fromLateHolder (i : Index) (k : KeepFields) (s : State) : Bool :=
  (entry s i).superseded == some ⟨k.incarnation, true⟩

/-- The entry without the record of a holder of an identity and incarnation. -/
def Entry.forgetting (x : Identity) (holder : Word16) (e : Entry) : Entry :=
  if e.identity = some x ∧ e.superseded.map Superseded.holder = some holder then
    { e with superseded := none }
  else e

/-- The holder's next KEEP is taken, whatever it meets, and its loss is remembered no longer (R103, log
entry 27). -/
def forgetLoss (k : KeepFields) (s : State) : State :=
  { s with table.entries := s.table.entries.map (Entry.forgetting k.identity k.incarnation) }

/-- A KEEP of the entry's identity under another incarnation (R35): REFUSE(REJOIN), and a probe whose
joiner has this incarnation concludes SAME_STATION. The next KEEP of a holder that answered its CHECK too
late is refused NOT_YOURS instead, where no probe runs against the entry (R103, log entry 27). -/
def keepRejoins (i : Index) (k : KeepFields) (late : Bool) (source : Nat) (s : State) : State :=
  match probing s i with
  | none => refuse source k.identity .keep (if late then .notYours else .rejoin) s
  | some c =>
    let t := refuse source k.identity .keep .rejoin s
    if (context s c).any (fun x => x.incarnation == k.incarnation) then resolveTerms c t else t

/-- A KEEP at an entry that is not the sender's (R36). -/
def keepCollides (i : Index) (k : KeepFields) (source : Nat) (s : State) : State :=
  refuse source k.identity .keep .notYours (addCollision i s)

/-- A KEEP of a live entry, by origin, identity and incarnation (R34 to R37), from a late holder or
not. -/
def keepLive (i : Index) (k : KeepFields) (late : Bool) (source : Nat) (s : State) : State :=
  let e := entry s i
  if e.identity ≠ some k.identity then keepCollides i k source s
  else if ¬ e.leased then
    send source (.kept k.identity 0 e.generation) (count .renewals s)
  else if e.incarnation ≠ some k.incarnation then keepRejoins i k late source s
  else
    match probing s i with
    | none => keepRenews i k source s
    | some c => keepDuplicates i c k source s

/-- The REFUSE reason of a late renewal (R38). -/
def heldReason : Option HeldCause → Reason
  | some .expired => .expired
  | some .left => .rejoin
  | some .revoked => .revoked
  | some .evicted => .revoked
  | none => .rejoin

/-- A KEEP is taken by the binding table (R33), by the entry at its source address. One of a holder that
answered too late is its next KEEP (R103). -/
def takeKeep (r : Request) (s : State) : State :=
  let k := readKeep r.payload
  let t := forgetLoss k s
  match entryAt s r.source with
  | none =>
    if s.phase.phase = .settling then adopt k r.source t
    else refuse r.source k.identity .keep .unknown t
  | some i =>
    let e := entry s i
    match e.state with
    | .bound => keepLive i k (fromLateHolder i k s) r.source t
    | .lapsing => keepLive i k (fromLateHolder i k s) r.source t
    | .held =>
      if e.identity = some k.identity then
        refuse r.source k.identity .keep (heldReason e.heldCause) t
      else refuse r.source k.identity .keep .notYours t
    | .reserved => refuse r.source k.identity .keep .notYours t
    | .free => t

/-- KEEP (R33). -/
def execKeep (s : State) : Host.Outcome State Fault Refusal := .next (dispatch .keep takeKeep s)

/-! ### LEAVE -/

/-- Identity and incarnation of a LEAVE both equal the entry's, which is leased (R41, R42). -/
def leaveMatches (e : Entry) (p : List Byte) : Bool :=
  e.leased && e.identity == some (payloadIdentity p) && e.incarnation == some (word16At p 8)

/-- A LEAVE is taken by the binding table: a matching live binding ends, a repeat is answered CLOSED
again, and every other LEAVE is refused (R41, R42). CLOSED precedes the answers of a resolution that
the GONE continues. -/
def takeLeave (r : Request) (s : State) : State :=
  let id := payloadIdentity r.payload
  match (entryAt s r.source).filter (fun i => leaveMatches (entry s i) r.payload) with
  | none => refuse r.source id .leave .notYours s
  | some i =>
    if (entry s i).live then
      probeGone i (send r.source (.closed id) (holdEntry .left i s))
    else if (entry s i).state = .held ∧ (entry s i).heldCause = some .left then
      send r.source (.closed id) s
    else refuse r.source id .leave .notYours s

/-- LEAVE (R41). -/
def execLeave (s : State) : Host.Outcome State Fault Refusal := .next (dispatch .leave takeLeave s)

end Sys2Proof.Machine
end

