-- ==== Sys2Proof/Machine/Resets.lean ====
section
/-! DEFINITION. COLD_RESET, and the commands that tear the part down: DISABLE, FLUSH, PORT_RESTART. -/

namespace Sys2Proof.Machine

/-- The transaction a cold reset leaves: one in progress is abandoned, and the port waits for the
release of its select (R161). -/
def abandonTransaction : Transaction → Transaction
  | .none => .none
  | .result .. => .abandoned
  | .status _ => .abandoned
  | .filler => .abandoned
  | .abandoned => .abandoned

/-- COLD_RESET (R24, R43, R59, R84, R119, R136, R137, R147, R160, R169). The line is no part of the
chip, so the level of carrier stays as it is; the free values drawn before are not drawn again. The
queue of waiting commands is the world's, not the part's. -/
def execColdReset (s : State) : Host.Outcome State Fault Refusal :=
  .next
    { State.reset with
      port.carrier := s.port.carrier
      port.overlapped := s.port.overlapped
      port.quietFrom := s.now
      host.transaction := abandonTransaction s.host.transaction
      now := s.now
      freeUsed := s.freeUsed
      pending := s.pending }

/-- The waiters of a list of messages, in order. -/
def waitersOf (q : List QueuedMessage) : List Waiter := (q.map QueuedMessage.waiters).flatten

/-- The port's part of a teardown (R134, R135): the inbound buffer is emptied and the queue purged
without a count, but for a head whose attempt is under way, which is left to end. -/
def purgePort (s : State) : State :=
  if attemptUnderWay s then
    reportAll .dropped (waitersOf s.port.queue.tail)
      { s with port.inbound := [], port.queue := s.port.queue.take 1, port.surviving := true }
  else
    reportAll .dropped (waitersOf s.port.queue)
      { s with port.inbound := [], port.queue := [], port.tx := .idle }

/-- The lookup unit's part of a teardown (R118): the bus waiting list is emptied, a bus walk is
abandoned, and the arbiter decides. -/
def purgeLookups (s : State) : State :=
  let s' := { s with lookup.busWaiting := [] }
  match s'.lookup.walk with
  | some (.bus ..) => arbitrate { s' with lookup.walk := none }
  | some (.host ..) => s'
  | none => s'

/-- What DISABLE and PORT-RESTART share: contexts closed silently, the deferral list emptied, the bus
FINDs discarded, the port purged (R142, R183). -/
def tearDown (s : State) : State :=
  let closed := closeAll s
  purgePort (purgeLookups { closed with admission.deferrals := [] })

/-- A teardown command completes now, or at the end of the attempt that survived it (R164). -/
def finishTearDown (data : State → List Byte) (s : State) : State :=
  if attemptUnderWay s then waitFor .attemptEnd s else finish .ok (data s) s

/-- The lease clock stops (R25); count-downs handed out and not yet taken are discarded with the part
of the period already run, so that remaining times stand still in OFFLINE (R4, R43; log entry 7). -/
def stopClock (s : State) : State :=
  { s with lease := { nextTick := none, owed := Vector.replicate 160 0 } }

/-- DISABLE on being taken (R142): refused PHASE in OFFLINE. -/
def disable (s : State) : State :=
  if s.phase.phase = .offline then finish .phase [] s
  else
    finishTearDown phaseData
      (tearDown (stopClock
        (enterPhase .offline { s with phase.settle := none, phase.settleOwed := false })))

/-- DISABLE (R142, R134). -/
def execDisable (f : CommandFrame) (s : State) : Host.Outcome State Fault Refusal :=
  .next (takeCommand 0x04 (· == 0) f (fun _ => disable) s)

/-- Frees every occupied entry (R24). -/
def freeAll (s : State) : State :=
  (List.finRange 160).foldl (fun s i => if (entry s i).occupied then freeEntry i s else s) s

/-- The number of occupied entries. -/
def occupiedCount (s : State) : Nat :=
  ((List.finRange 160).filter (fun i => (entry s i).occupied)).length

/-- FLUSH on being taken (R182): refused PHASE outside OFFLINE. -/
def flush (s : State) : State :=
  if s.phase.phase ≠ .offline then finish .phase [] s
  else
    finish .ok [oneByte (occupiedCount s)] (freeAll { s with admission.deferrals := [] })

/-- FLUSH (R182, R24). -/
def execFlush (f : CommandFrame) (s : State) : Host.Outcome State Fault Refusal :=
  .next (takeCommand 0x16 (· == 0) f (fun _ => flush) s)

/-- PORT_RESTART (R183, R135), taken in any phase. -/
def execPortRestart (f : CommandFrame) (s : State) : Host.Outcome State Fault Refusal :=
  .next (takeCommand 0x17 (· == 0) f (fun _ s => finishTearDown (fun _ => []) (tearDown s)) s)

end Sys2Proof.Machine
end

