-- ==== Sys2Proof/Machine/Timers.lean ====
section
/-! DEFINITION. The expiries of the page, agree, probe and silence timers. Each is an event of a timer
that runs: time moves on to the timer's end, and where the timer does not run the event does not
happen (log entries 5 and 6). -/

namespace Sys2Proof.Machine

/-- The page timer expires (R62): the context closes with REFUSE(TIMEOUT). -/
def pageExpires (c : CtxNum) (s : State) : State :=
  match context s c with
  | none => s
  | some x =>
    match x.stage with
    | .collecting d => closeUnasked c .timeout (advanceTo d s)
    | .checking .. => s
    | .offered _ => s

/-- PAGE_TIMER_EXPIRY (R62). -/
def execPageTimerExpiry (c : CtxNum) (s : State) : Host.Outcome State Fault Refusal :=
  .next (pageExpires c s)

/-- The agree timer expires (R62): the context closes with REFUSE(TIMEOUT) and its reserved entry is
freed. -/
def agreeExpires (c : CtxNum) (s : State) : State :=
  match context s c with
  | none => s
  | some x =>
    match x.stage with
    | .offered o => closeUnasked c .timeout (advanceTo o.deadline s)
    | .collecting _ => s
    | .checking .. => s

/-- AGREE_TIMER_EXPIRY (R62). -/
def execAgreeTimerExpiry (c : CtxNum) (s : State) : Host.Outcome State Fault Refusal :=
  .next (agreeExpires c s)

/-- The address a probe asks: its target's. -/
def probeAddress (s : State) (x : Exchange) : Option Nat :=
  x.target.bind (fun i => (entry s i).address)

/-- Records that the binding of entry `i`, live in `s` and held under the incarnation there, was superseded,
where its entry is RESERVED in `t` (R103, log entry 27). -/
def noteSuperseded (i : Index) (s t : State) : State :=
  match (entry s i).incarnation with
  | none => t
  | some holder =>
    if (entry s i).live ∧ (entry t i).state = .reserved then
      rememberHolder i (some ⟨holder, false⟩) t
    else t

/-- GONE by the last expiry of the probe timer (R96, R101): resolution continues, and a binding that it
supersedes is recorded (R103). -/
def goneUnanswered (c : CtxNum) (x : Exchange) (s : State) : State :=
  match x.target with
  | none => resolveTerms c s
  | some i => noteSuperseded i s (resolveTerms c s)

/-- The probe timer expires (R96): another CHECK while tries are left, and GONE otherwise. -/
def probeExpires (c : CtxNum) (s : State) : State :=
  match context s c with
  | none => s
  | some x =>
    match x.stage with
    | .checking tries (.running d) =>
      let t := advanceTo d s
      match probeAddress s x with
      | some a => if tries < s.phase.params.probeTries then sendCheck c x tries a t
                  else goneUnanswered c x t
      | none => goneUnanswered c x t
    | .checking _ (.awaiting _) => s
    | .collecting _ => s
    | .offered _ => s

/-- PROBE_TIMER_EXPIRY (R96). -/
def execProbeTimerExpiry (c : CtxNum) (s : State) : Host.Outcome State Fault Refusal :=
  .next (probeExpires c s)

/-- SILENCE_TIMER_EXPIRY (R132, R159): alive becomes 0, the timer stops, SEGMENT_SILENT is set, and so
is the latched-low flag. -/
def execSilenceTimerExpiry (s : State) : Host.Outcome State Fault Refusal :=
  .next
    (match s.port.silence with
    | none => s
    | some d =>
      setPart partSilent
        { advanceTo d s with
          port.alive := false, port.silence := none, change.latchedLow := true })

end Sys2Proof.Machine
end

