-- ==== Sys2Proof/Machine/Transmission.lean ====
section
/-! DEFINITION. The transmitter: ATTEMPT_BEGIN, CARRIER_RISE, ATTEMPT_SENT, COLLISION_SIGNAL, JAM_END
and BACKOFF_END (spec/07.4). -/

namespace Sys2Proof.Machine

/-- Transmit enable (R128, R129): asserted during an attempt and its jam. -/
def transmitEnable (s : State) : Bool := attemptUnderWay s

/-- The bits of a byte in the order in which they are sent, on the line and on the host port: most
significant bit first (R185, R186). -/
def bitsOf (b : Byte) : List Bool := (List.range 8).map b.getMsbD

/-- The bytes of the head as they go out on the line while its attempt is under way (R185). -/
def outgoing (s : State) : List Byte :=
  match s.port.tx, s.port.queue with
  | .sending _, m :: _ => frameBytes m.destination m.answer
  | _, _ => []

/-- The bits of those bytes, in the order in which TXD sends them (R185). -/
def outgoingBits (s : State) : List Bool := (outgoing s).flatMap bitsOf

/-- When the quiet time reaches the gap of 48 bit times (R128). -/
def gapEnds (s : State) : Nat :=
  s.port.quietFrom + (Config.gapBits - s.port.quietCarried) * bitTime s

/-- An attempt begins at a time (R128). A carrier period already under way overlaps it (R120). -/
def beginAt (t : Nat) (s : State) : State :=
  let s' := advanceTo t s
  { s' with port.tx := .sending s'.now, port.overlapped := s'.port.carrier }

/-- ATTEMPT_BEGIN (R128): for a transmitter that waits, the quiet time reaches 48 bit times, or would
have reached it where a late rise of carrier was ignored. While carrier defers the attempt, or with no
head deferring, it does not begin. An attempt that need not wait has begun in the event that took up
its head. -/
def execAttemptBegin (s : State) : Host.Outcome State Fault Refusal :=
  .next
    (match s.port.tx with
    | .deferring (some t) => beginAt t s
    | .deferring none => if s.port.carrier then s else beginAt (gapEnds s) s
    | .idle => s
    | .sending _ => s
    | .jamming _ => s
    | .backingOff _ => s)

/-- Carrier of another station rises: during an own attempt its period overlaps the attempt (R120). -/
def carrierRises (s : State) : State :=
  { s with port.carrier := true, port.overlapped := attemptUnderWay s }

/-- CARRIER_RISE (R128): in DEFERRING a rise at a quiet time below 36 bit times abandons the gap, and a
later one is ignored, the attempt beginning when the quiet time would have reached 48. A rise while
carrier is present is none. -/
def execCarrierRise (s : State) : Host.Outcome State Fault Refusal :=
  .next
    (if s.port.carrier then s
    else
      match s.port.tx with
      | .deferring none =>
        if quietBits s < Config.commitBits then carrierRises s
        else { carrierRises s with port.tx := .deferring (some (gapEnds s)) }
      | .deferring (some _) => carrierRises s
      | .idle => carrierRises s
      | .sending _ => carrierRises s
      | .jamming _ => carrierRises s
      | .backingOff _ => carrierRises s)

/-- The part's own carrier falls; where another station's is present, carrier falls with that. -/
def ownCarrierFalls (s : State) : State :=
  if s.port.carrier then s else { s with port.quietFrom := s.now, port.quietCarried := 0 }

/-- The data of DISABLE's or PORT-RESTART's result, by its command code (R172, R183). -/
def tearDownData (c : CommandRecord) (s : State) : List Byte :=
  if c.code = 0x04 then phaseData s else []

/-- The end of an attempt that survived DISABLE or PORT-RESTART completes that command (R134, R164). -/
def endSurvival (s : State) : State :=
  let s' := { s with port.surviving := false }
  match s'.host.engine with
  | .executing c =>
    match c.work with
    | .attemptEnd => finish .ok (tearDownData c s') s'
    | .atOnce => s'
    | .walk => s'
    | .notice .. => s'
  | .idle => s'
  | .done _ => s'

/-- The end of an attempt completes the teardown it survived, if it survived one. -/
def endAttempt (s : State) : State := if s.port.surviving then endSurvival s else s

/-- The head leaves the queue: its waiters are told, and the next message becomes the head (R127,
R129, R131). -/
def headLeaves (o : NoticeOutcome) (m : QueuedMessage) (rest : List QueuedMessage) (s : State) :
    State :=
  promote rest (reportAll o m.waiters { s with port.queue := rest })

/-- ATTEMPT_SENT (R129): the last bit of the check has been sent, a frame's length after the first. -/
def execAttemptSent (s : State) : Host.Outcome State Fault Refusal :=
  .next
    (match s.port.tx, s.port.queue with
    | .sending start, m :: rest =>
      let t := start + frameBits m.destination m.answer * bitTime s
      endAttempt (headLeaves .sent m rest (ownCarrierFalls (advanceTo t s)))
    | _, _ => s)

/-- COLLISION_SIGNAL (R129): acted on during an own attempt alone. -/
def execCollisionSignal (s : State) : Host.Outcome State Fault Refusal :=
  .next
    (match s.port.tx, s.port.queue with
    | .sending _, m :: rest =>
      { s with
        port.queue := { m with collisions := m.collisions + 1 } :: rest
        port.tx := .jamming (s.now + Config.jamBits * bitTime s) }
    | _, _ => s)

/-- The draw of a backoff after n collisions (R130): a free value in 0 .. 2^min(n,7) - 1. -/
def backoffDraw (n : Nat) (s : State) : Nat := Config.backoffDraw s.freeUsed % 2 ^ min n 7

/-- The backoff after n collisions, n below 12; a draw of 0 ends it at once (R130). -/
def backOff (n : Nat) (s : State) : State :=
  let r := backoffDraw n s
  let s' := { s with freeUsed := s.freeUsed + 1 }
  if r = 0 then takeUp s'
  else { s' with port.tx := .backingOff (s.now + r * Config.slotBits * bitTime s) }

/-- The end of a jam (R130, R134): a head whose attempt survived a teardown is removed without a
count; the twelfth collision drops the head, which is counted, a notice too (log entry 26); fewer make the
transmitter back off. -/
def jamEnds (m : QueuedMessage) (rest : List QueuedMessage) (s : State) : State :=
  if s.port.surviving then endSurvival (headLeaves .dropped m rest s)
  else if Config.attemptLimit ≤ m.collisions then
    headLeaves .dropped m rest (count .answerDrops s)
  else backOff m.collisions s

/-- JAM_END (R130). -/
def execJamEnd (s : State) : Host.Outcome State Fault Refusal :=
  .next
    (match s.port.tx, s.port.queue with
    | .jamming t, m :: rest => jamEnds m rest (ownCarrierFalls (advanceTo t s))
    | _, _ => s)

/-- BACKOFF_END (R130, R128): the head is taken up for a new attempt. -/
def execBackoffEnd (s : State) : Host.Outcome State Fault Refusal :=
  .next
    (match s.port.tx with
    | .backingOff t => takeUp (advanceTo t s)
    | .idle => s
    | .deferring _ => s
    | .sending _ => s
    | .jamming _ => s)

end Sys2Proof.Machine
end

