-- ==== Sys2Proof/Machine/Dispatch.lean ====
section
/-! DEFINITION. One arm per command, each one call of that command's meaning. -/

namespace Sys2Proof.Machine

def exec (i : Instr) (s : State) : Host.Outcome State Fault Refusal :=
  match i with
  | .coldReset => Sys2Proof.Machine.execColdReset s
  | .configure f => Sys2Proof.Machine.execConfigure f s
  | .readParameter f => Sys2Proof.Machine.execReadParameter f s
  | .enable f => Sys2Proof.Machine.execEnable f s
  | .disable f => Sys2Proof.Machine.execDisable f s
  | .suspend f => Sys2Proof.Machine.execSuspend f s
  | .resume f => Sys2Proof.Machine.execResume f s
  | .filterPut f => Sys2Proof.Machine.execFilterPut f s
  | .filterRemove f => Sys2Proof.Machine.execFilterRemove f s
  | .filterRead f => Sys2Proof.Machine.execFilterRead f s
  | .addStatic f => Sys2Proof.Machine.execAddStatic f s
  | .edit f => Sys2Proof.Machine.execEdit f s
  | .revoke f => Sys2Proof.Machine.execRevoke f s
  | .confirmKeep f => Sys2Proof.Machine.execConfirmKeep f s
  | .confirmEvict f => Sys2Proof.Machine.execConfirmEvict f s
  | .readEntry f => Sys2Proof.Machine.execReadEntry f s
  | .findAddress f => Sys2Proof.Machine.execFindAddress f s
  | .lookup f => Sys2Proof.Machine.execLookup f s
  | .readContext f => Sys2Proof.Machine.execReadContext f s
  | .readDeferrals f => Sys2Proof.Machine.execReadDeferrals f s
  | .nextChange f => Sys2Proof.Machine.execNextChange f s
  | .readCounters f => Sys2Proof.Machine.execReadCounters f s
  | .interruptSetup f => Sys2Proof.Machine.execInterruptSetup f s
  | .flush f => Sys2Proof.Machine.execFlush f s
  | .portRestart f => Sys2Proof.Machine.execPortRestart f s
  | .result => Sys2Proof.Machine.execResult s
  | .resultRelease n => Sys2Proof.Machine.execResultRelease n s
  | .status => Sys2Proof.Machine.execStatus s
  | .abort => Sys2Proof.Machine.execAbort s
  | .receiveMessage bytes extra => Sys2Proof.Machine.execReceiveMessage bytes extra s
  | .join => Sys2Proof.Machine.execJoin s
  | .extend => Sys2Proof.Machine.execExtend s
  | .agree => Sys2Proof.Machine.execAgree s
  | .reply => Sys2Proof.Machine.execReply s
  | .keep => Sys2Proof.Machine.execKeep s
  | .leave => Sys2Proof.Machine.execLeave s
  | .find => Sys2Proof.Machine.execFind s
  | .walkExamination => Sys2Proof.Machine.execWalkExamination s
  | .leaseTick => Sys2Proof.Machine.execLeaseTick s
  | .boundExpiry k => Sys2Proof.Machine.execBoundExpiry k s
  | .lapsingExpiry k => Sys2Proof.Machine.execLapsingExpiry k s
  | .heldExpiry k => Sys2Proof.Machine.execHeldExpiry k s
  | .legacySilenceExpiry k => Sys2Proof.Machine.execLegacySilenceExpiry k s
  | .settleExpiry => Sys2Proof.Machine.execSettleExpiry s
  | .pageTimerExpiry c => Sys2Proof.Machine.execPageTimerExpiry c s
  | .agreeTimerExpiry c => Sys2Proof.Machine.execAgreeTimerExpiry c s
  | .probeTimerExpiry c => Sys2Proof.Machine.execProbeTimerExpiry c s
  | .silenceTimerExpiry => Sys2Proof.Machine.execSilenceTimerExpiry s
  | .attemptBegin => Sys2Proof.Machine.execAttemptBegin s
  | .carrierRise => Sys2Proof.Machine.execCarrierRise s
  | .attemptSent => Sys2Proof.Machine.execAttemptSent s
  | .collisionSignal => Sys2Proof.Machine.execCollisionSignal s
  | .jamEnd => Sys2Proof.Machine.execJamEnd s
  | .backoffEnd => Sys2Proof.Machine.execBackoffEnd s

end Sys2Proof.Machine
end

