-- ==== Sys2Proof/Safety.lean ====
section
/-! DEFINITION. What a sound state of the block is: the invariants that the spec's own words give each
block, which claims use. -/

namespace Sys2Proof.Machine

/-! ### Parameters -/

/-- Every parameter lies in its range and neither pair is inverted (R147, R148). -/
def ParamsSound (p : Params) : Prop :=
  (∀ k, k ≠ .priority → Param.inRange (p.get k) k = true)
    ∧ p.priority.length = 8 ∧ p.priority.Nodup ∧ (∀ c ∈ p.priority, c ≤ 7)
    ∧ p.grantLow ≤ p.grantHigh ∧ p.minLease ≤ p.maxLease

/-! ### The binding table -/

/-- An entry's fields are present exactly as its state and origin say (R1, R3, R5). -/
def EntrySound (e : Entry) : Prop :=
  (e.state = .free → e = Entry.freeAt e.generation)
    ∧ (e.state ≠ .free → e.origin.isSome ∧ ∃ a, e.address = some a ∧ 1 ≤ a ∧ a ≤ 239)
    ∧ (e.leased → e.identity.isSome)
    ∧ (e.origin = some .legacy → e.identity = none)
    ∧ (e.incarnation.isSome ↔ e.leased)
    ∧ (e.terms.isSome ↔ e.state ≠ .free ∧ e.origin ≠ some .legacy)
    ∧ (e.label.isSome → e.origin = some .negotiated ∨ e.origin = some .static)
    ∧ (e.lease.isSome ↔ e.leased ∧ e.state ≠ .reserved)
    ∧ (e.remaining.isSome ↔ e.timed)
    ∧ (e.heldCause.isSome ↔ e.state = .held)
    ∧ (e.dispute.present → e.live)
    ∧ (e.origin = some .static ∨ e.origin = some .legacy → e.state = .bound)
    ∧ (e.state = .reserved → e.origin = some .negotiated)
    ∧ (e.superseded.isSome → e.leased)

/-- No two occupied entries hold one address (R14). -/
def AddressesUnique (s : State) : Prop :=
  ∀ i j a, (entry s i).address = some a → (entry s j).address = some a → i = j

/-- No two occupied entries hold one identity (R15). -/
def IdentitiesUnique (s : State) : Prop :=
  ∀ i j x, (entry s i).identity = some x → (entry s j).identity = some x → i = j

/-- The table is sound: parameters in range, each entry's fields as R1 presents them, and addresses and
identities held once. -/
def TableSound (s : State) : Prop :=
  ParamsSound s.phase.params ∧ (∀ i, EntrySound (entry s i)) ∧ AddressesUnique s
    ∧ IdentitiesUnique s

/-! ### Values in range -/

/-- A lease or a remaining time that runs: 1..4095 ticks (R1, R26). -/
def TicksInRange (n : Nat) : Prop := 1 ≤ n ∧ n ≤ 4095

/-- A groups list: at most four distinct groups 0..13 (R1). -/
def GroupsInRange (g : List Nat) : Prop := g.length ≤ 4 ∧ g.Nodup ∧ ∀ n ∈ g, n ≤ 13

/-- A label: 1..12 characters 20h..7Eh (R1). -/
def LabelInRange (l : List Byte) : Prop := 1 ≤ l.length ∧ l.length ≤ 12 ∧ charsValid l = true

/-- An entry's terms, label, lease and remaining lie in the ranges of R1, and remaining never rests at 0
(R26). The range of its address stands in `EntrySound`. -/
def EntryInRange (e : Entry) : Prop :=
  (∀ t, e.terms = some t → 1 ≤ t.window ∧ t.window ≤ 64 ∧ GroupsInRange t.groups)
    ∧ (∀ l, e.label = some l → LabelInRange l)
    ∧ (∀ n, e.lease = some n → TicksInRange n)
    ∧ (∀ n, e.remaining = some n → TicksInRange n)

/-- A context's fields but the offered address, which is its RESERVED entry's (`OffersReserved`), lie in
the ranges of R60; the last acknowledged turn is the number of pages taken (R73), and the TERMS turn one
more (R79). -/
def ExchangeInRange (x : Exchange) : Prop :=
  x.classSet ≠ 0 ∧ x.requestedLease ≤ 4095 ∧ x.hint ≤ 239 ∧ x.pagesTaken ≤ 6
    ∧ x.lastTurn = x.pagesTaken
    ∧ (∀ g, x.groupsPage = some g → GroupsInRange g)
    ∧ (∀ w, x.windowRequest = some w → 1 ≤ w ∧ w ≤ 64)
    ∧ (∀ l, x.label = some l → LabelInRange l)
    ∧ x.classCap ≠ 0
    ∧ (∀ n, x.leaseCap = some n → TicksInRange n)
    ∧ (∀ n t, x.stage = .checking n t → 1 ≤ n ∧ n ≤ 7)
    ∧ (∀ o, x.stage = .offered o → 1 ≤ o.window ∧ o.window ≤ 64 ∧ TicksInRange o.lease
        ∧ o.turn = x.lastTurn + 1)

/-- A filter rule's caps are present as its verdict says, and in range (R44). -/
def RuleInRange (r : FilterRule) : Prop :=
  (r.classCap.isSome ↔ r.verdict = .admitCapped)
    ∧ (∀ c, r.classCap = some c → c ≠ 0)
    ∧ (∀ n, r.leaseCap = some n → r.verdict = .admitCapped ∧ TicksInRange n)

/-- Every buffered request has passed the port's content test (R122). -/
def InboundTested (s : State) : Prop := ∀ r ∈ s.port.inbound, contentOk r.kind r.payload = true

/-- Parameters, entries and contexts but their addresses, filter rules, counters and the requests from
which they are made hold values in range. -/
def ValuesInRange (s : State) : Prop :=
  ParamsSound s.phase.params ∧ (∀ i, EntryInRange (entry s i))
    ∧ (∀ c x, context s c = some x → ExchangeInRange x)
    ∧ (∀ r ∈ s.admission.filter, RuleInRange r) ∧ s.admission.filter.length ≤ Config.filterRules
    ∧ InboundTested s ∧ ∀ k, counter s k ≤ Config.counterCeiling

/-! ### Contexts and the deferral list -/

/-- No two contexts that are not IDLE hold one identity (R61). -/
def ContextsUnique (s : State) : Prop :=
  ∀ c d x y, context s c = some x → context s d = some y → x.identity = y.identity → c = d

/-- Every OFFERED context has its RESERVED entry, which holds the context's identity and the offered
address (R61, R79). -/
def OffersReserved (s : State) : Prop :=
  ∀ c x o, context s c = some x → x.stage = .offered o →
    (entry s o.entry).state = .reserved ∧ (entry s o.entry).identity = some x.identity
      ∧ (entry s o.entry).address = some o.address

/-- Every RESERVED entry is the reserved entry of an OFFERED context (R61). -/
def ReservedOffered (s : State) : Prop :=
  ∀ i, (entry s i).state = .reserved →
    ∃ c x o, context s c = some x ∧ x.stage = .offered o ∧ o.entry = i

/-- The entry a CHECKING context probes is live and holds the context's identity under a lease
(R76, R102). -/
def ProbesLive (s : State) : Prop :=
  ∀ c x, context s c = some x → x.checking →
    ∃ i, x.target = some i ∧ (entry s i).live ∧ (entry s i).leased
      ∧ (entry s i).identity = some x.identity

/-- The deferral list: at most 16 records, no identity twice, counts 1..255, and no identity of a
context that is not IDLE (R53, R58). -/
def DeferralsSound (s : State) : Prop :=
  s.admission.deferrals.length ≤ Config.deferralRecords
    ∧ (s.admission.deferrals.map Deferral.identity).Nodup
    ∧ (∀ d ∈ s.admission.deferrals, 1 ≤ d.count ∧ d.count ≤ 255)
    ∧ ∀ c x, context s c = some x → ∀ d ∈ s.admission.deferrals, d.identity ≠ x.identity

/-- No context leaves IDLE in OFFLINE or SETTLING, and no request is buffered in OFFLINE (R84, R123). -/
def QuietPhases (s : State) : Prop :=
  (s.phase.phase = .offline ∨ s.phase.phase = .settling → ∀ c, context s c = none)
    ∧ (s.phase.phase = .offline → s.port.inbound = [])

/-- The join unit is sound. -/
def JoinSound (s : State) : Prop :=
  ContextsUnique s ∧ OffersReserved s ∧ ReservedOffered s ∧ ProbesLive s ∧ DeferralsSound s
    ∧ QuietPhases s

/-! ### Phase and clock -/

/-- The clock runs outside OFFLINE alone (R25), and the settle timer runs, with 1..255 ticks, in
SETTLING alone (R137). -/
def ClockSound (s : State) : Prop :=
  (s.lease.nextTick = none ↔ s.phase.phase = .offline)
    ∧ (s.phase.settle.isSome ↔ s.phase.phase = .settling)
    ∧ (∀ n, s.phase.settle = some n → 1 ≤ n ∧ n ≤ 255)
    ∧ (s.phase.settleOwed → s.phase.phase = .settling)
    ∧ s.phase.params.settle ≤ 255

/-! ### The lookup unit -/

/-- A walk has matched fewer records than end it (R110). -/
def WalkSound : Walk → Prop
  | .bus _ _ found => found.length < 4
  | .host _ _ found => found.length < 8

/-- Nothing waits while no walk is in progress (R109), at most two FINDs wait (R107), and a walk has
not reached its limit. -/
def LookupSound (s : State) : Prop :=
  (s.lookup.walk = none → s.lookup.busWaiting = [] ∧ s.lookup.hostSlot = none)
    ∧ s.lookup.busWaiting.length ≤ Config.busFinds
    ∧ ∀ w, s.lookup.walk = some w → WalkSound w

/-! ### The segment port and the engine -/

/-- The transmitter is IDLE exactly when the queue is empty; the capacities hold; an attempt that
survived a teardown is under way; and in OFFLINE the queue holds nothing but the message of such an
attempt (R123, R125, R134). -/
def PortSound (s : State) : Prop :=
  (s.port.tx = .idle ↔ s.port.queue = [])
    ∧ s.port.queue.length ≤ Config.queueMessages
    ∧ s.port.inbound.length ≤ Config.inboundRequests
    ∧ (s.port.surviving → attemptUnderWay s)
    ∧ (s.phase.phase = .offline → s.port.queue = [] ∨ s.port.surviving ∧ s.port.queue.length = 1)

/-- No two waiting messages are identical (R126). -/
def WaitingDistinct (s : State) : Prop :=
  s.port.queue.tail.Pairwise (fun m n => ¬ (m.destination = n.destination ∧ m.answer = n.answer))

/-- A waiting message has met no collision; the head has met at most 11, or 12 in the jam after the last
attempt (R125, R130). -/
def CollisionsSound (s : State) : Prop :=
  (∀ m ∈ s.port.queue.tail, m.collisions = 0)
    ∧ ∀ m, s.port.queue.head? = some m →
        m.collisions ≤ 12 ∧ ((∀ t, s.port.tx ≠ .jamming t) → m.collisions ≤ 11)

/-- How many times the engine waits on messages of the queue. -/
def engineWaits (s : State) : Nat := (waitersOf s.port.queue).count .engine

/-- What the command in hand waits for, none when the engine is not EXECUTING. -/
def workInHand (s : State) : Option Work :=
  match s.host.engine with
  | .executing c => some c.work
  | .idle => none
  | .done _ => none

/-- The command in hand waits for its notice. -/
def noticeInHand (s : State) : Bool :=
  match workInHand s with
  | some (.notice ..) => true
  | some .walk => false
  | some .attemptEnd => false
  | some .atOnce => false
  | none => false

/-- The host's LOOKUP is being walked. -/
def hostWalking (s : State) : Bool :=
  match s.lookup.walk with
  | some (.host ..) => true
  | some (.bus ..) => false
  | none => false

/-- The engine is EXECUTING exactly while what it waits for is still to come (R164): a notice in the
queue, waited for once; the end of a surviving attempt; or the end of the host's walk, whose LOOKUP
stands either in the slot or in the walk. A result record being read is the engine's (R165). -/
def EngineSound (s : State) : Prop :=
  workInHand s ≠ some .atOnce
    ∧ engineWaits s = (noticeInHand s).toNat
    ∧ (workInHand s = some .attemptEnd ↔ s.port.surviving = true)
    ∧ (workInHand s = some .walk ↔ (s.lookup.hostSlot.isSome || hostWalking s) = true)
    ∧ (s.lookup.hostSlot.isSome && hostWalking s) = false
    ∧ ∀ reply, s.host.transaction = .result reply true →
        ∃ r, s.host.engine = .done r ∧ reply = r.bytes

/-! ### The terms of claims: commands of the host -/

/-- The host port takes transactions: it does not wait for the release of a transaction that a cold
reset abandoned (R161). -/
def Listening (s : State) : Prop := s.host.transaction ≠ .abandoned

/-- A COMMAND is taken: the port listens (R161) and the engine is not EXECUTING (R163). -/
def Ready (s : State) : Prop := Listening s ∧ ∀ c, s.host.engine ≠ .executing c

/-- A frame of a command code whose declared length is that of the bytes clocked in (R163). -/
def Framed (code : Byte) (f : CommandFrame) : Prop :=
  f.code = code ∧ f.length.toNat = f.params.length

/-- The parameter lengths of the command code table (R186): for each code, the least and the greatest
length and the step between lengths. -/
def paramLengths : List (Nat × Nat × Nat × Nat) :=
  [(0x01, 5, 45, 5), (0x02, 1, 1, 1), (0x03, 0, 0, 1), (0x04, 0, 0, 1), (0x05, 0, 0, 1),
    (0x06, 0, 0, 1), (0x07, 21, 21, 1), (0x08, 1, 1, 1), (0x09, 1, 1, 1), (0x0A, 30, 30, 1),
    (0x0B, 26, 26, 1), (0x0C, 5, 5, 1), (0x0D, 5, 5, 1), (0x0E, 1, 1, 1), (0x0F, 1, 1, 1),
    (0x10, 20, 20, 1), (0x11, 1, 1, 1), (0x12, 1, 1, 1), (0x13, 0, 0, 1), (0x14, 1, 1, 1),
    (0x15, 3, 3, 1), (0x16, 0, 0, 1), (0x17, 0, 0, 1)]

/-- A code names a directory command and a length suits it. -/
def lengthSuits (code n : Nat) : Bool :=
  paramLengths.any (fun r => r.1 == code && decide (r.2.1 ≤ n ∧ n ≤ r.2.2.1) && n % r.2.2.2 == 0)

/-- The host port after a COMMAND is taken, with the engine as given: an unread result is discarded and
RESULT_LOST set (R163). -/
def hostAfter (e : Engine) (s : State) : HostPort :=
  { engine := e, rejected := s.host.rejected,
    resultLost := s.host.resultLost || s.host.engine.code == 2, transaction := .none }

/-- The state in which a COMMAND is taken and completes at once, on top of `t` for its own effect. -/
def completed (f : CommandFrame) (status : Status) (data : List Byte) (s t : State) : State :=
  { t with host := hostAfter (.done ⟨f.tag, status, data⟩) s }

/-- The state in which a COMMAND is taken and stays in hand, on top of `t` for its own effect. -/
def inHand (f : CommandFrame) (w : Work) (s t : State) : State :=
  { t with host := hostAfter (.executing ⟨f.tag, f.code, f.params, w⟩) s }

/-! ### The terms of claims: entries, contexts and requests -/

/-- An index is the lowest of those that have a property. -/
def Lowest {n : Nat} (p : Fin n → Prop) (i : Fin n) : Prop := p i ∧ ∀ j, j < i → ¬ p j

/-- A class is the first of the priority order that lies in the station's, the offered and the cap set
(R77). -/
def ClassChosen (p : Params) (station cap : ClassSet) (cls : Cls) : Prop :=
  let common (n : Nat) : Bool := station.getLsbD n && p.offered.getLsbD n && cap.getLsbD n
  ∃ before after, p.priority = before ++ cls.val :: after ∧ common cls.val = true
    ∧ ∀ n ∈ before, common n = false

/-- The table with one entry replaced. -/
def withEntry (i : Index) (e : Entry) (s : State) : State :=
  { s with table.entries := s.table.entries.set i e }

/-- The change unit with causes added to one entry's set. -/
def withCauses (i : Index) (c : CauseSet) (s : State) : State :=
  { s with change.entryCauses := s.change.entryCauses.set i (s.change.entryCauses[i] ||| c) }

/-- The entry made HELD by a change request, with a cause (R12). -/
def heldBy (cause : HeldCause) (i : Index) (s : State) : State :=
  withCauses i causeState
    (withEntry i
      { entry s i with
        state := .held, generation := (entry s i).generation + 1, heldCause := some cause,
        remaining := some s.phase.params.hold, dispute := ⟨false, false⟩ } s)

/-- The entry made FREE by a change request (R13). -/
def released (i : Index) (s : State) : State :=
  withCauses i causeReleased (withEntry i (Entry.freeAt ((entry s i).generation + 1)) s)

/-- The entry that a fixed-address station's traffic makes, in FREE entry `i` (R11, R87). -/
def learned (i : Index) (a : Nat) (s : State) : State :=
  withCauses i causeCreated
    (withEntry i
      { Entry.freeAt ((entry s i).generation + 1) with
        state := .bound, origin := some .legacy, address := some a,
        remaining := some s.phase.params.legacySilence } s)

/-- What learning an address then does (R87, R92): nothing while the parameter is off; with it on, the
lowest FREE entry is taken, or with none FREE the part cause TABLE_FULL is set. -/
def LearnedFrom (a : Nat) (s t : State) : Prop :=
  (s.phase.params.legacyLearning = false ∧ t = s)
    ∨ (s.phase.params.legacyLearning = true
        ∧ ((∃ i, Lowest (fun j => (entry s j).state = .free) i ∧ t = learned i a s)
          ∨ ((∀ j, (entry s j).state ≠ .free) ∧ t = setPart partTableFull s)))

/-- The entry whose dispute gains ADDRESS_COLLISION, counted (R88). -/
def collided (i : Index) (s : State) : State :=
  count .collisions
    (withCauses i causeDispute
      (withEntry i
        { entry s i with
          generation := (entry s i).generation + 1
          dispute := { (entry s i).dispute with collision := true } } s))

/-- The entry after an EDIT of its settings, with the generation given (R175). -/
def edited (x : EditFields) (e : Entry) (t : Terms) (g : Word16) : Entry :=
  { e with
    generation := g
    terms := some ⟨x.cls.getD t.cls, x.window.getD t.window, x.groups.getD t.groups⟩
    label := if x.clearLabel then none else x.label.or e.label
    lease := x.lease.or e.lease
    remaining := if e.state = .bound then x.lease.or e.remaining else e.remaining }

/-- The front request of the inbound buffer, and the requests behind it. -/
def Front (s : State) (r : Request) (rest : List Request) : Prop := s.port.inbound = r :: rest

/-- The state in which the front request has left the buffer. -/
def popped (rest : List Request) (s : State) : State := { s with port.inbound := rest }

/-- No occupied entry holds an address. -/
def AddressUnheld (s : State) (a : Nat) : Prop :=
  ∀ i, (entry s i).occupied → (entry s i).address ≠ some a

/-- No occupied entry holds an identity. -/
def IdentityUnheld (s : State) (x : Identity) : Prop :=
  ∀ i, (entry s i).occupied → (entry s i).identity ≠ some x

/-- No context holds an identity. -/
def NoContext (s : State) (x : Identity) : Prop := ∀ c e, context s c = some e → e.identity ≠ x

/-- No probe runs against an entry. -/
def Unprobed (s : State) (i : Index) : Prop :=
  ∀ c x, context s c = some x → x.checking → x.target ≠ some i

/-- Context `c` is CHECKING with the entry as its target, and no other context is (R97). -/
def ProbedBy (s : State) (i : Index) (c : CtxNum) : Prop :=
  (∃ x, context s c = some x ∧ x.checking ∧ x.target = some i)
    ∧ ∀ d y, context s d = some y → y.checking → y.target = some i → d = c

/-- What the outcome GONE of an event on the entry then does (R101, R102): nothing where no probe runs
against it, and otherwise the probing context goes on with its resolution. -/
def GoneThen (s : State) (i : Index) (after : State → State) : Prop :=
  (Unprobed s i ∧ after = id) ∨ ∃ c, ProbedBy s i c ∧ after = resolveTerms c

/-- The entry is the one that holds an address: occupied, with it, and the only one. -/
def HoldsAddress (s : State) (i : Index) (a : Nat) : Prop :=
  (entry s i).occupied ∧ (entry s i).address = some a
    ∧ ∀ j, (entry s j).occupied → (entry s j).address = some a → j = i

/-- The entry is the one that holds an identity. -/
def HoldsIdentity (s : State) (i : Index) (x : Identity) : Prop :=
  (entry s i).occupied ∧ (entry s i).identity = some x
    ∧ ∀ j, (entry s j).occupied → (entry s j).identity = some x → j = i

/-- The holder of an identity and incarnation lost entry `i`, for want of a REPLY, to the binding that the
entry now has; its REPLY has come since, late, or not; and no KEEP of it was taken since (R103, log
entry 27). -/
def LostBy (s : State) (i : Index) (x : Identity) (holder : Word16) (late : Bool) : Prop :=
  (entry s i).identity = some x ∧ (entry s i).superseded = some ⟨holder, late⟩

/-- The state once a KEEP of an identity and incarnation is taken: that this holder lost an entry is
remembered no longer (R103, log entry 27). -/
def keepMet (x : Identity) (holder : Word16) (s : State) : State :=
  let lost (e : Entry) : Bool :=
    e.identity = some x ∧ ∃ late, e.superseded = some ⟨holder, late⟩
  { s with
    table.entries :=
      s.table.entries.map (fun e => if lost e then { e with superseded := none } else e) }

/-! ### The terms of claims: layouts -/

/-- The bytes of a record from a place on (R186). -/
def fieldAt (r : List Byte) (k n : Nat) : List Byte := (r.drop k).take n

/-- A groups field of five bytes: a count, then four bytes; all zeros when absent (R186). That those beyond
the count are zeros is the model's choice (log entry 30). -/
def GroupsField (groups : Option (List Nat)) (l : List Byte) : Prop :=
  (groups = none → l = [0, 0, 0, 0, 0])
    ∧ ∀ g, groups = some g →
        l = oneByte g.length :: (g.map oneByte ++ [0, 0, 0, 0]).take 4

/-- A label field of thirteen bytes: a length, then twelve bytes; all zeros when absent (R186). That those
beyond the length are zeros is the model's choice (log entry 30). -/
def LabelField (label : Option (List Byte)) (l : List Byte) : Prop :=
  (label = none → l = List.replicate 13 0)
    ∧ ∀ c, label = some c → l = oneByte c.length :: (c ++ List.replicate 12 0).take 12

/-- A two-byte number, zeros when absent (R186). -/
def NumberField (number : Option Nat) (l : List Byte) : Prop :=
  (number = none → l = [0, 0]) ∧ ∀ n, number = some n → l = beBytes 2 n

/-- The entry record of R186, byte by byte. The zeros in the unnamed bits of its flag bytes are the model's
(log entry 31). -/
def EntryLayout (e : Entry) (r : List Byte) : Prop :=
  r.length = 42
    ∧ byteAt r 0 = (match e.state with
        | .free => 0 | .reserved => 1 | .bound => 2 | .lapsing => 3 | .held => 4)
    ∧ byteAt r 1 = (match e.origin with
        | none => 0 | some .negotiated => 1 | some .adopted => 2 | some .static => 3
        | some .legacy => 4)
    ∧ (List.range 8).map (byteAt r 2).getLsbD =
        [e.identity.isSome, e.incarnation.isSome, e.terms.isSome, e.label.isSome, e.lease.isSome,
          e.remaining.isSome, false, false]
    ∧ word16At r 3 = e.generation
    ∧ identityAt r 5 = e.identity.getD 0
    ∧ word16At r 13 = e.incarnation.getD 0
    ∧ byteAt r 15 = oneByte (e.address.getD 0)
    ∧ (e.terms = none → byteAt r 16 = 0 ∧ byteAt r 17 = 0)
    ∧ (∀ t, e.terms = some t → byteAt r 16 = oneByte t.cls.val ∧ byteAt r 17 = oneByte t.window)
    ∧ GroupsField (e.terms.map Terms.groups) (fieldAt r 18 5)
    ∧ LabelField e.label (fieldAt r 23 13)
    ∧ NumberField e.lease (fieldAt r 36 2)
    ∧ NumberField e.remaining (fieldAt r 38 2)
    ∧ byteAt r 40 = (match e.heldCause with
        | none => 0 | some .expired => 1 | some .left => 2 | some .revoked => 3 | some .evicted => 4)
    ∧ (List.range 8).map (byteAt r 41).getLsbD =
        [e.dispute.duplicate, e.dispute.collision, false, false, false, false, false, false]

/-- The timer a context shows in its last two bytes (R180): its kind, and its time still to run in units
of 10 ms rounded up. A probe timer not yet started shows as kind 0. -/
def TimerField (now : Nat) (stage : Stage) (r : List Byte) : Prop :=
  let shows (kind : Byte) (deadline : Nat) : Prop :=
    byteAt r 49 = kind ∧ ∃ n, byteAt r 50 = oneByte n
      ∧ deadline - now ≤ n * 10000 ∧ n * 10000 < deadline - now + 10000
  match stage with
  | .collecting d => shows 1 d
  | .checking _ (.running d) => shows 2 d
  | .checking _ (.awaiting _) => byteAt r 49 = 0
  | .offered o => shows 3 o.deadline

/-- The context record of R186, byte by byte, for a context that is not IDLE. The zero in the unnamed bit of
its presence byte is the model's (log entry 31). -/
def ContextLayout (now : Nat) (x : Exchange) (r : List Byte) : Prop :=
  let offered : Bool := match x.stage with
    | .collecting _ => false | .checking .. => false | .offered _ => true
  r.length = 51
    ∧ byteAt r 0 = (match x.stage with | .collecting _ => 1 | .checking .. => 2 | .offered _ => 3)
    ∧ identityAt r 1 = x.identity
    ∧ word16At r 9 = x.incarnation
    ∧ byteAt r 11 = x.classSet
    ∧ fieldAt r 12 2 = beBytes 2 x.requestedLease
    ∧ byteAt r 14 = oneByte x.hint ∧ byteAt r 15 = oneByte x.lastTurn
    ∧ byteAt r 16 = oneByte x.pagesTaken
    ∧ (List.range 8).map (byteAt r 17).getLsbD =
        [x.groupsPage.isSome, x.windowRequest.isSome, x.label.isSome, x.leaseCap.isSome,
          x.target.isSome, x.probeNeeded, offered, false]
    ∧ GroupsField x.groupsPage (fieldAt r 18 5)
    ∧ byteAt r 23 = oneByte (x.windowRequest.getD 0)
    ∧ LabelField x.label (fieldAt r 24 13)
    ∧ byteAt r 37 = x.classCap
    ∧ NumberField x.leaseCap (fieldAt r 38 2)
    ∧ (x.target = none → byteAt r 40 = 0) ∧ (∀ i, x.target = some i → byteAt r 40 = oneByte i.val)
    ∧ (∀ n t, x.stage = .checking n t → byteAt r 41 = oneByte n)
    ∧ (offered = false → fieldAt r 42 7 = List.replicate 7 0)
    ∧ (∀ o, x.stage = .offered o →
        fieldAt r 42 7 =
          [oneByte o.entry.val, oneByte o.cls.val, oneByte o.address, oneByte o.window]
            ++ beBytes 2 o.lease ++ [oneByte o.turn])
    ∧ TimerField now x.stage r

/-- The record of an IDLE context: its state, no field marked present and so zeros in the fields that the
presence bits govern, and no timer (R180, R186). What its other bytes hold is the model's (log entry 29). -/
def IdleLayout (r : List Byte) : Prop :=
  r.length = 51 ∧ byteAt r 0 = 0 ∧ byteAt r 17 = 0 ∧ fieldAt r 18 19 = List.replicate 19 0
    ∧ fieldAt r 38 3 = List.replicate 3 0 ∧ fieldAt r 42 7 = List.replicate 7 0 ∧ byteAt r 49 = 0

/-- A rule of FILTER-READ: its position, then the layout of FILTER-PUT (R173, R186). -/
def RuleLayout (position : Nat) (q : FilterRule) (r : List Byte) : Prop :=
  r.length = 21 ∧ byteAt r 0 = oneByte position ∧ identityAt r 1 = q.pattern
    ∧ identityAt r 9 = q.mask
    ∧ byteAt r 17 = (match q.verdict with | .admits => 0 | .refuse => 1 | .admitCapped => 2)
    ∧ byteAt r 18 = q.classCap.getD 0 ∧ NumberField q.leaseCap (fieldAt r 19 2)

/-- A LOOKUP record (R186), with the origin in the high four bits of its second byte. The zeros in the
unnamed bits of its flags are the model's (log entry 31). -/
def LookupLayout (q : LookupRecord) (r : List Byte) : Prop :=
  r.length = 14 ∧ byteAt r 0 = oneByte q.index.val
    ∧ (byteAt r 1).toNat % 16 = (match q.state with
        | .free => 0 | .reserved => 1 | .bound => 2 | .lapsing => 3 | .held => 4)
    ∧ (byteAt r 1).toNat / 16 = (match q.origin with
        | none => 0 | some .negotiated => 1 | some .adopted => 2 | some .static => 3
        | some .legacy => 4)
    ∧ (List.range 8).map (byteAt r 2).getLsbD =
        [q.identity.isSome, q.dispute.duplicate, q.dispute.collision, false, false, false, false,
          false]
    ∧ identityAt r 3 = q.identity.getD 0 ∧ byteAt r 11 = oneByte q.address
    ∧ word16At r 12 = q.generation

/-! ### The terms of claims: contexts -/

/-- Context `c` holds exchange `x`, the only one of its identity (R61); where it has made an offer, the
entry is RESERVED for it. -/
def HoldsContext (s : State) (c : CtxNum) (x : Exchange) : Prop :=
  context s c = some x
    ∧ (∀ d y, context s d = some y → y.identity = x.identity → d = c)
    ∧ ∀ o, x.stage = .offered o → (entry s o.entry).state = .reserved

/-- Context `c`, which holds exchange `x`, is closed without an answer (R63): it becomes IDLE, and an
offer's entry is freed. -/
def contextClosed (c : CtxNum) (x : Exchange) (s : State) : State :=
  let t :=
    match x.stage with
    | .offered o => released o.entry s
    | .collecting _ => s
    | .checking .. => s
  { t with join.contexts := s.join.contexts.set c none }

/-- The target that check 6 gives a JOIN whose handling goes on, and whether it must be probed (R69). -/
def JoinTarget (s : State) (j : JoinFields) (target : Option Index) (probe : Bool) : Prop :=
  (IdentityUnheld s j.identity ∧ target = none ∧ probe = false)
    ∨ ∃ i, HoldsIdentity s i j.identity ∧ target = some i
        ∧ (((entry s i).state = .held ∧ probe = false)
          ∨ ((entry s i).live ∧ (entry s i).dispute.duplicate = false
            ∧ (((entry s i).incarnation = some j.incarnation ∧ j.more = true ∧ probe = false)
              ∨ ((entry s i).incarnation ≠ some j.incarnation ∧ probe = true))))

/-- Context `c` is taken for a JOIN and collects pages (R58, R71): it holds the JOIN's fields, the caps of
its verdict and its target; the identity leaves the deferral list; and JOINS is counted. -/
def contextTaken (c : CtxNum) (j : JoinFields) (caps : Caps) (target : Option Index) (probe : Bool)
    (s : State) : State :=
  let x : Exchange :=
    { identity := j.identity, incarnation := j.incarnation, classSet := j.classSet,
      requestedLease := j.lease, hint := j.hint, lastTurn := 0, pagesTaken := 0,
      groupsPage := none, windowRequest := none, label := none, classCap := caps.classes,
      leaseCap := caps.lease, target := target, probeNeeded := probe,
      stage := .collecting (s.now + s.phase.params.pageTimeout * 10000) }
  count .joins
    { s with
      join.contexts := s.join.contexts.set c (some x)
      admission.deferrals := s.admission.deferrals.filter (fun d => d.identity ≠ j.identity) }

/-! ### The terms of claims: resolution -/

/-- The target that R75 leaves a context: the entry recorded, while it holds the context's identity with
origin NEGOTIATED or ADOPTED. -/
def TargetSettled (s : State) (x : Exchange) (target : Option Index) : Prop :=
  let kept (i : Index) : Prop :=
    (entry s i).occupied ∧ (entry s i).identity = some x.identity ∧ (entry s i).leased
  (∃ i, x.target = some i ∧ kept i ∧ target = some i)
    ∨ ((∀ i, x.target = some i → ¬ kept i) ∧ target = none)

/-- The address of a join without a target (R21): the hint where it lies in the grant range and is free,
and otherwise the lowest free address of that range. -/
def AddressChosen (s : State) (hint a : Nat) : Prop :=
  let free (b : Nat) : Prop :=
    s.phase.params.grantLow ≤ b ∧ b ≤ s.phase.params.grantHigh ∧ AddressUnheld s b
  (hint ≠ 0 ∧ free hint ∧ a = hint)
    ∨ (¬ (hint ≠ 0 ∧ free hint) ∧ free a ∧ ∀ b, b < a → ¬ free b)

/-- The HELD entry of least remaining time, the lowest index among equals (R18). -/
def Reclaimed (s : State) (i : Index) : Prop :=
  Lowest (fun j => (entry s j).state = .held
    ∧ ∀ k, (entry s k).state = .held →
        orZero (entry s j).remaining ≤ orZero (entry s k).remaining) i

/-- The entry a join takes, by how much its generation advances, and the causes it then shows (R9, R17,
R18, R151): its target; or the lowest FREE entry; or with none FREE the entry reclaimed. -/
def EntryTaken (s : State) (target : Option Index) (i : Index) (advance : Word16) (causes : CauseSet) :
    Prop :=
  (target = some i ∧ advance = 1 ∧ causes = causeState ||| causeTerms)
    ∨ (target = none ∧ Lowest (fun j => (entry s j).state = .free) i ∧ advance = 1
        ∧ causes = causeCreated ||| causeTerms)
    ∨ (target = none ∧ (∀ j, (entry s j).state ≠ .free) ∧ Reclaimed s i ∧ advance = 2
        ∧ causes = causeReleased ||| causeCreated ||| causeTerms)

/-- The address and the entry of a join (R21, R78): those of its target, or else an address chosen for an
identity that no entry holds, and an entry allocated. -/
def Placed (s : State) (x : Identity) (hint : Nat) (target : Option Index) (i : Index) (a : Nat) :
    Prop :=
  (target = some i ∧ HoldsIdentity s i x ∧ HoldsAddress s i a)
    ∨ (target = none ∧ IdentityUnheld s x ∧ AddressChosen s hint a)

/-- The window of an offer: the class's cap, or a smaller request (R77). -/
def offeredWindow (p : Params) (x : Exchange) (cls : Cls) : Nat :=
  match x.windowRequest with
  | none => p.windowCap[cls]
  | some w => min w p.windowCap[cls]

/-- Context `c` has made its offer of class, address and entry (R9, R79): the entry RESERVED with the
terms, its generation advanced, its causes added; the context OFFERED with the agree timer started; and
TERMS sent. -/
def offerMade (c : CtxNum) (x : Exchange) (target : Option Index) (i : Index) (a : Nat) (cls : Cls)
    (advance : Word16) (causes : CauseSet) (s : State) : State :=
  let p := s.phase.params
  let w := offeredWindow p x cls
  let lease := clampLease p x.requestedLease x.leaseCap
  let o : Offer :=
    { entry := i, cls := cls, address := a, window := w, lease := lease, turn := x.lastTurn + 1,
      deadline := s.now + p.agreeTimeout * 10000 }
  send 254 (.terms x.identity (x.lastTurn + 1) cls a w lease p.tickPeriod)
    { withCauses i causes
        (withEntry i
          { Entry.freeAt ((entry s i).generation + advance) with
            state := .reserved, origin := some .negotiated, identity := some x.identity,
            incarnation := some x.incarnation, address := some a,
            terms := some ⟨cls, w, x.groupsPage.getD []⟩, label := x.label } s) with
      join.contexts := s.join.contexts.set c (some { x with target := target, stage := .offered o }) }

/-! ### The terms of claims: the line -/

/-- The content errors of R122. -/
def ContentError (k : ReqKind) (p : List Byte) : Prop :=
  match k with
  | .keep =>
    let n := (byteAt p 14).toNat
    let groups := p.drop 15
    4 < n ∨ p.length ≠ 15 + n ∨ 7 < (byteAt p 10).toNat ∨ (byteAt p 11).toNat = 0
      ∨ 64 < (byteAt p 11).toNat ∨ 4095 < natAt p 12 2 ∨ (∃ g ∈ groups, 13 < g.toNat)
      ∨ ¬ groups.Nodup
  | .leave => p.length ≠ 10
  | .reply => p.length ≠ 10
  | .find =>
    let g := (byteAt p 16).toNat
    p.length ≠ 18 ∨ (14 ≤ g ∧ g ≤ 254) ∨ 159 < (byteAt p 17).toNat
  | .join => False
  | .extend => False
  | .agree => False

/-- The gap is over (R128): carrier is absent and the quiet time is 48 bit times or more. Bit times
counted at an earlier bus rate count as they were (log entry 20). -/
def GapOver (s : State) : Prop :=
  s.port.carrier = false
    ∧ 48 ≤ s.port.quietCarried + (s.now - s.port.quietFrom) / (1000 / s.phase.params.busRate)

/-- No attempt of the part is under way and none overlaps the carrier period: the line is heard. -/
def Hearing (s : State) : Prop := attemptUnderWay s = false ∧ s.port.overlapped = false

/-- The state after a heard message's carrier falls, before the message is judged (R128). -/
def heard (s : State) : State :=
  { s with
    port.carrier := false, port.overlapped := false, port.quietFrom := s.now,
    port.quietCarried := 0 }

/-- The state after a valid message has refreshed segment-alive (R132). -/
def aliveAfter (s : State) : State :=
  { heard s with
    port.alive := true
    port.silence := some (s.now + s.phase.params.segmentSilence * 50000) }

/-- The attempt under way is over at a time, with the queue and the transmitter as given (R128): the
quiet time starts anew, unless another station's carrier is present. -/
def attemptOver (time : Nat) (q : List QueuedMessage) (tx : Transmitter) (s : State) : State :=
  { s with
    now := time, port.queue := q, port.tx := tx
    port.quietFrom := if s.port.carrier then s.port.quietFrom else time
    port.quietCarried := if s.port.carrier then s.port.quietCarried else 0 }

/-- What the transmitter turns to when the messages `l` are left at a time (R127): with none it is IDLE;
the first of them, when its age is within the answer lifetime, is deferred for, since the line is not
yet quiet for the gap. -/
def TurnsTo (s : State) (time : Nat) (l q : List QueuedMessage) (tx : Transmitter) : Prop :=
  (l = [] ∧ q = [] ∧ tx = .idle)
    ∨ ∃ n r, l = n :: r ∧ time - n.produced ≤ s.phase.params.answerLifetime * 10000 ∧ q = l
        ∧ tx = .deferring none

/-- What DISABLE and PORT-RESTART leave of contexts, lists and queues (R142, R183): every context IDLE,
every RESERVED entry freed with its generation advanced and RELEASED added, every other entry and cause
set as it was, the deferral list, the bus FINDs and the inbound buffer empty, and nothing queued but a
head whose attempt is under way. -/
def TornDown (s t : State) : Prop :=
  (∀ c, context t c = none)
    ∧ (∀ i, (entry s i).state = .reserved →
        entry t i = Entry.freeAt ((entry s i).generation + 1)
          ∧ t.change.entryCauses[i] = s.change.entryCauses[i] ||| causeReleased)
    ∧ (∀ i, (entry s i).state ≠ .reserved →
        entry t i = entry s i ∧ t.change.entryCauses[i] = s.change.entryCauses[i])
    ∧ t.admission = { s.admission with deferrals := [] }
    ∧ t.lookup.busWaiting = [] ∧ (∀ r i l, t.lookup.walk ≠ some (.bus r i l))
    ∧ t.lookup.lastStarted = s.lookup.lastStarted
    ∧ t.port.inbound = []
    ∧ (attemptUnderWay s → t.port.tx = s.port.tx ∧ t.port.queue = s.port.queue.take 1)
    ∧ (¬ attemptUnderWay s → t.port.tx = .idle ∧ t.port.queue = [])
    ∧ t.port.alive = s.port.alive ∧ t.port.silence = s.port.silence
    ∧ t.change.counters = s.change.counters

end Sys2Proof.Machine
end

