-- ==== Sys2Proof/WellFormed.lean ====
section
/-! DEFINITION. Which commands are well formed: a COMMAND frame stands under the row of its own code,
and a message has fewer than eight bits beyond its whole bytes. -/

namespace Sys2Proof

/-- A command that carries a COMMAND frame, and the frame it carries. -/
def Instr.frame? : Instr → Option CommandFrame
  | .configure f => some f
  | .readParameter f => some f
  | .enable f => some f
  | .disable f => some f
  | .suspend f => some f
  | .resume f => some f
  | .filterPut f => some f
  | .filterRemove f => some f
  | .filterRead f => some f
  | .addStatic f => some f
  | .edit f => some f
  | .revoke f => some f
  | .confirmKeep f => some f
  | .confirmEvict f => some f
  | .readEntry f => some f
  | .findAddress f => some f
  | .lookup f => some f
  | .readContext f => some f
  | .readDeferrals f => some f
  | .nextChange f => some f
  | .readCounters f => some f
  | .interruptSetup f => some f
  | .flush f => some f
  | .portRestart f => some f
  | .coldReset => none
  | .result => none
  | .resultRelease _ => none
  | .status => none
  | .abort => none
  | .receiveMessage _ _ => none
  | .join => none
  | .extend => none
  | .agree => none
  | .reply => none
  | .keep => none
  | .leave => none
  | .find => none
  | .walkExamination => none
  | .leaseTick => none
  | .boundExpiry _ => none
  | .lapsingExpiry _ => none
  | .heldExpiry _ => none
  | .legacySilenceExpiry _ => none
  | .settleExpiry => none
  | .pageTimerExpiry _ => none
  | .agreeTimerExpiry _ => none
  | .probeTimerExpiry _ => none
  | .silenceTimerExpiry => none
  | .attemptBegin => none
  | .carrierRise => none
  | .attemptSent => none
  | .collisionSignal => none
  | .jamEnd => none
  | .backoffEnd => none

/-- The bits of a message beyond its whole bytes, where a command carries a message. -/
def Instr.extraBits : Instr → Nat
  | .receiveMessage _ n => n
  | _ => 0

/-- A command is well formed when its frame, if it has one, decodes to this very command, and when the
bits left over from whole bytes are fewer than eight. -/
def Instr.wellFormed (i : Instr) : Bool :=
  (match i.frame? with
    | none => true
    | some f => decodeFrame f == i)
    && decide (i.extraBits < 8)

end Sys2Proof
end

