-- ==== Sys2Proof/Certificates/Slice0/Obligations.lean ====
section
/-! DEFINITION. The statements for the provers. -/

open Sys2Proof Sys2Proof.Machine

/-! ### The queue of commands and the engine -/

/-- A step takes the command at the front of the queue and runs it with the queue's rest. The queue is
the model's (log entry 17). -/
def Obligations.StepRunsFrontCommand : Prop :=
  ∀ (c : Instr) (rest : List Instr) (s : State), s.pending = c :: rest →
    step s = exec c { s with pending := rest }

/-- Every command answers a next state, from every state; none of them touches the queue of waiting
commands or runs time back, and the count of free values given never falls. The three are the model's own
(log entries 1, 5 and 17). -/
def Obligations.EveryCommandAnswersNext : Prop :=
  ∀ (c : Instr) (s : State), ∃ t, exec c s = .next t ∧ t.pending = s.pending
    ∧ s.now ≤ t.now ∧ s.freeUsed ≤ t.freeUsed

/-- R163: a COMMAND taken by a listening port while the engine is EXECUTING is discarded unexamined and
sets REJECTED; nothing else changes but that the port's transaction is over. -/
def Obligations.CommandRefusedWhileExecuting : Prop :=
  ∀ (i : Instr) (f : CommandFrame) (s : State) (c : CommandRecord),
    i.frame? = some f → Listening s → s.host.engine = .executing c →
      exec i s = .next { s with host.rejected := true, host.transaction := .none }

/-- R163, R186: a frame whose declared length is not that of its bytes, whose code names no command, or
whose length is not one of the command code table, completes at once MALFORMED and does nothing
else. -/
def Obligations.MalformedCommandCompletes : Prop :=
  ∀ (i : Instr) (f : CommandFrame) (s : State),
    i.frame? = some f → i.wellFormed = true → Ready s →
      (f.length.toNat ≠ f.params.length ∨ lengthSuits f.code.toNat f.params.length = false) →
        exec i s = .next (completed f .malformed [] s s)

/-! ### Reset -/

/-- R24, R43, R59, R84, R119, R136, R137, R147, R160, R161, R169: what cold reset leaves, from every
state; a transaction in progress is abandoned. While the port then waits for the release of select, it
takes no RESULT, STATUS or ABORT, and a release of select ends the wait. That a COMMAND, whose event is a
release of select, is that release and is not taken, is the model's (log entry 10). -/
def Obligations.ColdResetClears : Prop :=
  (∀ s, ∃ t, exec .coldReset s = .next t
    ∧ (∀ i, entry t i = Entry.freeAt 0 ∧ t.change.entryCauses[i] = 0)
    ∧ t.lease.nextTick = none
    ∧ t.admission.filter = [] ∧ t.admission.deferrals = []
    ∧ (∀ c, context t c = none)
    ∧ t.lookup.walk = none ∧ t.lookup.busWaiting = [] ∧ t.lookup.hostSlot = none
    ∧ t.lookup.lastStarted = .host
    ∧ t.port.inbound = [] ∧ t.port.queue = [] ∧ t.port.tx = .idle ∧ t.port.alive = false
    ∧ t.port.silence = none
    ∧ t.phase.phase = .offline ∧ t.phase.settle = none
    ∧ (∀ c : Cls, t.phase.params.windowCap[c] = 16)
    ∧ [Param.busRate, .grantLow, .grantHigh, .offered, .priority, .tickPeriod, .minLease, .maxLease,
        .defaultLease, .grace, .hold, .settle, .legacyLearning, .legacySilence, .adoption,
        .defaultVerdict, .pageTimeout, .agreeTimeout, .probeTimeout, .probeTries, .answerLifetime,
        .holdoffUnit, .segmentSilence].map t.phase.params.get
      = [250, 1, 200, 255, 0x76543210, 20, 10, 600, 120, 10, 60, 30, 1, 300, 1, 0, 20, 50, 10, 3,
        100, 5, 40]
    ∧ t.change.partCauses = 0 ∧ (∀ k, counter t k = 0)
    ∧ t.change.master = false ∧ t.change.entryEnable = 0 ∧ t.change.partEnable = 0
    ∧ t.change.latchedLow = true ∧ interruptAsserted t = false ∧ aliveView t = false
    ∧ t.host.engine = .idle ∧ t.host.rejected = false ∧ t.host.resultLost = false
    ∧ t.host.transaction = if s.host.transaction = .none then .none else .abandoned)
  ∧ ∀ s : State, s.host.transaction = .abandoned →
      exec .result s = .next s ∧ exec .status s = .next s ∧ exec .abort s = .next s
        ∧ (∀ n, exec (.resultRelease n) s = .next { s with host.transaction := .none })
        ∧ ∀ (i : Instr) (f : CommandFrame), i.frame? = some f →
            exec i s = .next { s with host.transaction := .none }

/-- The state after reset meets every invariant stated below. -/
def Obligations.ResetMeetsInvariants : Prop :=
  TableSound State.reset ∧ JoinSound State.reset ∧ ClockSound State.reset
    ∧ LookupSound State.reset ∧ PortSound State.reset ∧ EngineSound State.reset
    ∧ WaitingDistinct State.reset ∧ CollisionsSound State.reset ∧ ValuesInRange State.reset

/-! ### Invariants that every step keeps -/

/-- R1, R14, R15: the fields of every entry stay present as its state and origin say, and addresses and
identities stay held once, through every step. -/
def Obligations.TableSoundKept : Prop :=
  ∀ s t, TableSound s → step s = .next t → TableSound t

/-- R58, R61: contexts stay unique by identity, every RESERVED entry stays the reserved entry of one
OFFERED context and the other way round, every probe's target stays live, and no deferred identity
holds a context, through every step. -/
def Obligations.JoinSoundKept : Prop :=
  ∀ s t, TableSound s → JoinSound s → step s = .next t → JoinSound t

/-- R25, R137: the lease clock runs outside OFFLINE alone, and the settle timer in SETTLING alone,
through every step. -/
def Obligations.ClockSoundKept : Prop :=
  ∀ s t, ClockSound s → step s = .next t → ClockSound t

/-- R107, R109, R110: the lookup unit never leaves a request waiting while no walk is in progress,
holds at most two waiting FINDs, and no walk outgrows its limit, through every step. -/
def Obligations.LookupSoundKept : Prop :=
  ∀ s t, LookupSound s → step s = .next t → LookupSound t

/-- R123, R125, R134, R164: the transmitter is IDLE exactly with an empty queue, the capacities hold,
the queue of OFFLINE holds nothing but a surviving attempt's message, and the engine is EXECUTING
exactly while what it waits for is still to come, through every step. -/
def Obligations.PortAndEngineSoundKept : Prop :=
  ∀ s t, PortSound s → EngineSound s → step s = .next t → PortSound t ∧ EngineSound t

/-- R126, R130: no two waiting messages become identical, and no head meets more than twelve
collisions, through every step. -/
def Obligations.QueueSoundKept : Prop :=
  ∀ s t, WaitingDistinct s → CollisionsSound s → step s = .next t →
    WaitingDistinct t ∧ CollisionsSound t

/-- R1, R26, R44, R60, R147, R154: these values stay in their ranges through every step: every parameter;
an entry's terms, label, lease and remaining, and remaining never rests at 0; a context's class set,
requested lease, hint, pages, turns, groups page, window request, label, caps, probe tries and offered
window, lease and turn; every filter rule; every buffered request's content; and every counter. The range
of an entry's address stands in TableSoundKept. -/
def Obligations.ValuesInRangeKept : Prop :=
  ∀ s t, ValuesInRange s → step s = .next t → ValuesInRange t

/-- R7: a command other than a cold reset that leaves an entry's generation as it was has left every
tracked field of the entry as it was. -/
def Obligations.GenerationTellsChange : Prop :=
  ∀ (c : Instr) (s t : State) (i : Index), c ≠ .coldReset → exec c s = .next t →
    (entry t i).generation = (entry s i).generation →
      (entry t i).tracked = (entry s i).tracked

/-! ### Formats -/

/-- R185: a string followed by its own check leaves the register at 0000h, which is the receiver's
test; and the nine bytes 31h to 39h give the check 29B1h. -/
def Obligations.CheckResidueZero : Prop :=
  (∀ bytes : List Byte, crc (bytes ++ checkBytes (crc bytes)) = 0)
    ∧ crc [0x31, 0x32, 0x33, 0x34, 0x35, 0x36, 0x37, 0x38, 0x39] = 0x29B1

/-- R120, R185: every frame the part can send passes the receiver's own frame test, and reads back as
its destination, source 0, a clear bound flag, its kind and its payload. -/
def Obligations.FrameRoundTrip : Prop :=
  ∀ (d : Nat) (a : Answer), d ≤ 255 → (∀ c l, a = .found c l → l.length ≤ 4) →
    readFrame (frameBytes d a) 0 = some ⟨d, 0, false, a.code, a.payload⟩

/-! ### Parameters and phases -/

/-- R148: a CONFIGURE is tested whole, in order, for names, phase and values, and applies all of its
settings or none. A setting applied is the value the parameter then has; every other parameter keeps
its value. Quiet bit times already counted are kept as they were unless the bus rate changes. -/
def Obligations.ConfigureAppliesAllOrNone : Prop :=
  ∀ (f : CommandFrame) (s : State), Ready s → Framed 0x01 f →
    lengthSuits 0x01 f.params.length = true →
      let l := readSettings f.params
      let after := applySettings s.phase.params l
      let named := (∀ x ∈ l, x.param ≠ none) ∧ (l.map Setting.param).Nodup
      let allowed := s.phase.phase = .offline
        ∨ ∀ x ∈ l, ∀ k, x.param = some k → k.offlineOnly = false
      let valued := (∀ x ∈ l, ∀ k, x.param = some k → Param.inRange x.value k = true)
        ∧ after.grantLow ≤ after.grantHigh ∧ after.minLease ≤ after.maxLease
      (¬ named → exec (.configure f) s = .next (completed f .range [] s s))
        ∧ (named → ¬ allowed → exec (.configure f) s = .next (completed f .phase [] s s))
        ∧ (named → allowed → ¬ valued → exec (.configure f) s = .next (completed f .range [] s s))
        ∧ (named → allowed → valued →
            ∃ p q c, exec (.configure f) s =
                .next (completed f .ok [] s
                  { s with phase.params := p, port.quietFrom := q, port.quietCarried := c })
              ∧ (∀ x ∈ l, ∀ k, x.param = some k → p.get k = x.value)
              ∧ (∀ k, (∀ x ∈ l, x.param ≠ some k) → p.get k = s.phase.params.get k)
              ∧ (p.busRate = s.phase.params.busRate →
                  q = s.port.quietFrom ∧ c = s.port.quietCarried))

/-- R138: ENABLE in OFFLINE starts a full period of the lease clock, sets PHASE, and enters SETTLING
with the settle timer started, or ACTIVE when settle ticks is 0; in any other phase it is refused
PHASE. -/
def Obligations.EnableStartsPart : Prop :=
  ∀ (f : CommandFrame) (s : State), Ready s → Framed 0x03 f → f.params = [] →
    let started : State :=
      { s with
        lease.nextTick := some (s.now + s.phase.params.tickPeriod * 50000)
        change.partCauses := s.change.partCauses ||| partPhase }
    (s.phase.phase = .offline → s.phase.params.settle = 0 →
        exec (.enable f) s =
          .next (completed f .ok [2] s { started with phase.phase := .active }))
      ∧ (s.phase.phase = .offline → s.phase.params.settle ≠ 0 →
          exec (.enable f) s =
            .next (completed f .ok [1] s
              { started with
                phase.phase := .settling, phase.settle := some s.phase.params.settle }))
      ∧ (s.phase.phase ≠ .offline → exec (.enable f) s = .next (completed f .phase [] s s))

/-- R141: RESUME in SUSPENDED makes the phase ACTIVE and completes OK; in any other phase it is refused
PHASE. -/
def Obligations.ResumeReturnsToActive : Prop :=
  ∀ (f : CommandFrame) (s : State), Ready s → Framed 0x06 f → f.params = [] →
    (s.phase.phase = .suspended →
        exec (.resume f) s =
          .next (completed f .ok [2] s
            { s with
              phase.phase := .active
              change.partCauses := s.change.partCauses ||| partPhase }))
      ∧ (s.phase.phase ≠ .suspended → exec (.resume f) s = .next (completed f .phase [] s s))

/-- R140, R84, R137: SUSPEND in ACTIVE makes the phase SUSPENDED, sets PHASE, closes every COLLECTING
context, each with a REFUSE counted, and touches no other context, no entry, no deferral, no walk and no
clock; in any other phase it is refused PHASE. With room in the answer queue, and no such REFUSE waiting,
the messages REFUSE(SUSPENDED) to 254 join its back in ascending order of context, their request kinds
being free values (log entry 2). -/
def Obligations.SuspendClosesCollecting : Prop :=
  ∀ (f : CommandFrame) (s : State), Ready s → Framed 0x05 f → f.params = [] →
    (s.phase.phase ≠ .active → exec (.suspend f) s = .next (completed f .phase [] s s))
      ∧ (s.phase.phase = .active →
          ∃ t, exec (.suspend f) s = .next t
            ∧ t.host = hostAfter (.done ⟨f.tag, .ok, [3]⟩) s
            ∧ t.phase = { s.phase with phase := .suspended }
            ∧ (∀ c, context t c = if collectingNow s c then none else context s c)
            ∧ counter t .refusals =
                min (max 65535 (counter s .refusals))
                  (counter s .refusals + (List.finRange 8).countP (collectingNow s))
            ∧ t.table = s.table ∧ t.lease = s.lease ∧ t.admission = s.admission
            ∧ t.lookup = s.lookup ∧ t.port.inbound = s.port.inbound
            ∧ t.change.entryCauses = s.change.entryCauses
            ∧ t.change.partCauses.getLsbD 0 = true
            ∧ (counter s .refusals < 65527 → s.port.queue.length ≤ 8 → ContextsUnique s →
                (∀ m ∈ s.port.queue.tail, ∀ x k, m.answer ≠ .refuse x k .suspended) →
                  t.change.partCauses = s.change.partCauses ||| partPhase
                    ∧ ∃ kind : CtxNum → ReqKind,
                        t.port.queue = s.port.queue
                          ++ ((List.finRange 8).filter (collectingNow s)).flatMap (fun c =>
                            (context s c).toList.map (fun x =>
                              ⟨254, .refuse x.identity (kind c) .suspended, s.now, 0, []⟩))))

/-- R142, R183, R134, R135: DISABLE and PORT-RESTART tear down the contexts, the lists and the queues
in the event in which they are taken. DISABLE also makes the phase OFFLINE and stops the settle timer
and the lease clock. Each completes at once, or, with an attempt under way, stays in hand until the
attempt ends. -/
def Obligations.TeardownCommands : Prop :=
  ∀ (f : CommandFrame) (s : State), Ready s → TableSound s → JoinSound s → EngineSound s →
    f.params = [] →
      (Framed 0x04 f → s.phase.phase = .offline →
          exec (.disable f) s = .next (completed f .phase [] s s))
        ∧ (Framed 0x04 f → s.phase.phase ≠ .offline →
            ∃ t, exec (.disable f) s = .next t ∧ TornDown s t
              ∧ t.phase = { s.phase with phase := .offline, settle := none, settleOwed := false }
              ∧ t.lease.nextTick = none
              ∧ t.change.partCauses = s.change.partCauses ||| partPhase
              ∧ t.host = hostAfter
                  (if attemptUnderWay s then .executing ⟨f.tag, f.code, f.params, .attemptEnd⟩
                    else .done ⟨f.tag, .ok, [0]⟩) s)
        ∧ (Framed 0x17 f →
            ∃ t, exec (.portRestart f) s = .next t ∧ TornDown s t
              ∧ t.phase = s.phase ∧ t.lease = s.lease
              ∧ t.change.partCauses = s.change.partCauses
              ∧ t.host = hostAfter
                  (if attemptUnderWay s then .executing ⟨f.tag, f.code, f.params, .attemptEnd⟩
                    else .done ⟨f.tag, .ok, []⟩) s)

/-- R182, R24: FLUSH in OFFLINE frees every occupied entry with its generation advanced by 1 and
RELEASED added, leaves FREE entries as they are, empties the deferral list and returns the number
freed; it keeps everything else. In any other phase it is refused PHASE. -/
def Obligations.FlushFreesAll : Prop :=
  ∀ (f : CommandFrame) (s : State), Ready s → Framed 0x16 f → f.params = [] →
    (s.phase.phase ≠ .offline → exec (.flush f) s = .next (completed f .phase [] s s))
      ∧ (s.phase.phase = .offline →
          ∃ t, exec (.flush f) s = .next t
            ∧ (∀ i, (entry s i).occupied →
                entry t i = Entry.freeAt ((entry s i).generation + 1)
                  ∧ t.change.entryCauses[i] = s.change.entryCauses[i] ||| causeReleased)
            ∧ (∀ i, (entry s i).state = .free →
                entry t i = entry s i ∧ t.change.entryCauses[i] = s.change.entryCauses[i])
            ∧ t.host = hostAfter (.done ⟨f.tag, .ok,
                [oneByte ((List.finRange 160).countP (fun i => (entry s i).occupied))]⟩) s
            ∧ t = { s with
                    table := t.table, change.entryCauses := t.change.entryCauses,
                    admission.deferrals := [], host := t.host })

/-! ### Admission -/

/-- R50: FILTER-PUT tests the rule's fields, the position and the room, in that order, and inserts the
rule at its position, with the later rules moved one position on. The rule is read as its bytes stand:
pattern, mask, verdict, and for ADMIT_CAPPED alone its class cap and its lease cap, 0 being none. A rule
fails for a verdict that is none of the three, for ADMIT_CAPPED with no class or a lease cap above 4095,
and for ADMIT or REFUSE with a class or a lease cap. -/
def Obligations.FilterPutInserts : Prop :=
  ∀ (f : CommandFrame) (s : State), Ready s → Framed 0x07 f → f.params.length = 21 →
    let l := s.admission.filter
    let k := (byteAt f.params 0).toNat
    let v := (byteAt f.params 17).toNat
    let classes := byteAt f.params 18
    let lease := natAt f.params 19 2
    (readRule f.params = none ↔
        2 < v ∨ (v = 2 ∧ (classes = 0 ∨ 4095 < lease)) ∨ (v < 2 ∧ (classes ≠ 0 ∨ lease ≠ 0)))
      ∧ (readRule f.params = none ∨ l.length < k →
          exec (.filterPut f) s = .next (completed f .range [] s s))
      ∧ (readRule f.params ≠ none → k ≤ l.length → 24 ≤ l.length →
          exec (.filterPut f) s = .next (completed f .listFull [] s s))
      ∧ (∀ r, readRule f.params = some r →
          r.pattern = identityAt f.params 1 ∧ r.mask = identityAt f.params 9
            ∧ (v = 0 → r.verdict = .admits) ∧ (v = 1 → r.verdict = .refuse)
            ∧ (v = 2 → r.verdict = .admitCapped)
            ∧ r.classCap = (if v = 2 then some classes else none)
            ∧ r.leaseCap = (if v = 2 ∧ lease ≠ 0 then some lease else none))
      ∧ (∀ r, readRule f.params = some r → k ≤ l.length → l.length < 24 →
          exec (.filterPut f) s =
            .next (completed f .ok [oneByte (l.length + 1)] s
              { s with admission.filter := l.insertIdx k r }))

/-- R51, R58: FILTER-REMOVE removes the rule at its position; FILTER-READ returns the count and up to five
rules, and READ-DEFERRALS the count and up to twelve records, from a starting position; a position out of
order is refused RANGE. A rule is returned in 21 bytes, as FILTER-PUT carries it, and a deferral record in
nine. -/
def Obligations.ListCommands : Prop :=
  ∀ (f : CommandFrame) (s : State) (k : Byte), Ready s → f.params = [k] →
    let l := s.admission.filter
    let d := s.admission.deferrals
    (Framed 0x08 f → k.toNat < l.length →
        exec (.filterRemove f) s =
          .next (completed f .ok [oneByte (l.length - 1)] s
            { s with admission.filter := l.eraseIdx k.toNat }))
      ∧ (Framed 0x08 f → l.length ≤ k.toNat →
          exec (.filterRemove f) s = .next (completed f .range [] s s))
      ∧ (Framed 0x09 f → k.toNat ≤ l.length →
          exec (.filterRead f) s =
            .next (completed f .ok
              (oneByte l.length ::
                (((l.zipIdx).drop k.toNat).take 5).flatMap (fun r => ruleBytes r.2 r.1)) s s))
      ∧ (Framed 0x09 f → l.length < k.toNat →
          exec (.filterRead f) s = .next (completed f .range [] s s))
      ∧ (Framed 0x12 f → k.toNat ≤ d.length →
          exec (.readDeferrals f) s =
            .next (completed f .ok
              (oneByte d.length :: ((d.drop k.toNat).take 12).flatMap Deferral.bytes) s s))
      ∧ (Framed 0x12 f → d.length < k.toNat →
          exec (.readDeferrals f) s = .next (completed f .range [] s s))
      ∧ (∀ n q, RuleLayout n q (ruleBytes n q))
      ∧ ∀ q : Deferral,
          q.bytes.length = 9 ∧ identityAt q.bytes 0 = q.identity ∧ byteAt q.bytes 8 = oneByte q.count

/-- R45: a rule matches an identity when every bit set in its mask has the same value in the identity
and the pattern; the first rule that matches decides; where none matches the default verdict does. -/
def Obligations.FirstMatchingRuleDecides : Prop :=
  ∀ (s : State) (x : Identity),
    let fits (r : FilterRule) : Prop :=
      ∀ n, n < 64 → r.mask.getLsbD n = true → x.getLsbD n = r.pattern.getLsbD n
    (∀ before r after, s.admission.filter = before ++ r :: after → (∀ q ∈ before, ¬ fits q) →
        fits r →
          verdict s x =
            match r.verdict with
            | .admits => some ⟨0xFF, none⟩
            | .admitCapped => some ⟨r.classCap.getD 0, r.leaseCap⟩
            | .refuse => none)
      ∧ ((∀ q ∈ s.admission.filter, ¬ fits q) →
          verdict s x = if s.phase.params.defaultAdmit then some ⟨0xFF, none⟩ else none)

/-- R54, R55, R65: a JOIN taken in SETTLING is answered HOLDOFF whatever its content. Its identity's
record rises by 1, to at most 255, and moves to the front, or enters at the front with count 1, the
last of sixteen records falling off the back; the HOLDOFF carries the new count, or 7 if it is above
7, and the holdoff unit. -/
def Obligations.JoinHeldOffInSettling : Prop :=
  ∀ (s : State) (r : Request) (rest : List Request), Front s r rest → r.kind = .join →
    r.source = 254 → s.phase.phase = .settling → s.admission.deferrals.length ≤ 16 →
    (s.admission.deferrals.map Deferral.identity).Nodup →
      let x := payloadIdentity r.payload
      let l := s.admission.deferrals
      ∃ n l', exec .join s =
          .next (send 254 (.holdoff x (min n 7) s.phase.params.holdoffUnit)
            (count .holdoffs { popped rest s with admission.deferrals := ⟨x, n⟩ :: l' }))
        ∧ (∀ d ∈ l, d.identity = x →
            n = min (d.count + 1) 255 ∧ l' = l.filter (fun d => d.identity ≠ x))
        ∧ ((∀ d ∈ l, d.identity ≠ x) →
            n = 1 ∧ l' = if l.length < 16 then l else l.dropLast)

/-! ### Entry commands -/

/-- R11, R17, R174: ADD-STATIC of an unheld address and identity takes the lowest FREE entry, makes it
BOUND of origin STATIC with the command's fields, advances its generation by 1 and hands CREATED; the
result carries the index and the new generation. -/
def Obligations.AddStaticTakesLowestFree : Prop :=
  ∀ (f : CommandFrame) (s : State) (x : StaticFields) (i : Index), Ready s → Framed 0x0A f →
    f.params.length = 30 → readStatic f.params = some x → AddressUnheld s x.address →
    (∀ y, x.identity = some y → IdentityUnheld s y) →
    Lowest (fun j => (entry s j).state = .free) i →
      let g := (entry s i).generation + 1
      exec (.addStatic f) s =
        .next (completed f .ok ([oneByte i.val] ++ word16Bytes g) s
          (withCauses i causeCreated
            (withEntry i
              { Entry.freeAt g with
                state := .bound, origin := some .static, identity := x.identity,
                address := some x.address, terms := some x.terms, label := x.label } s)))

/-- R174, R186, R16, R18, R19: ADD-STATIC's checks in their order. The fields give RANGE for an address
outside 1..239, a class above 7, a window outside 1..64, more than four groups, a group above 13 or given
twice, and, where the label is marked present, 0 or more than 12 characters or one outside 20h..7Eh; that
a set flag bit of 7..2 does too is the model's (log entry 4). The fields are read as they stand, an
identity or a label only where its flag marks it present. An address that an occupied entry holds gives
ADDRESS_IN_USE, and an identity IDENTITY_IN_USE. Without a FREE entry the command reclaims the HELD
entry of least remaining time, the lowest index among equals, whose generation advances twice and which
shows RELEASED and CREATED; with neither it is refused TABLE_FULL and that part cause is set. -/
def Obligations.AddStaticChecksAndReclaims : Prop :=
  ∀ (f : CommandFrame) (s : State), Ready s → Framed 0x0A f → f.params.length = 30 →
    let p := f.params
    let address := (byteAt p 0).toNat
    let flags := byteAt p 1
    let window := (byteAt p 11).toNat
    let members := (p.drop 13).take (byteAt p 12).toNat
    let chars := (p.drop 18).take (byteAt p 17).toNat
    (readStatic p = none ↔
        address = 0 ∨ 239 < address ∨ 3 < flags.toNat ∨ 7 < (byteAt p 10).toNat ∨ window = 0
          ∨ 64 < window ∨ readGroups p 12 = none
          ∨ (flags.getLsbD 1 = true ∧ readLabel p 17 = none))
      ∧ (readGroups p 12 = none ↔
          4 < (byteAt p 12).toNat ∨ (∃ b ∈ members, 13 < b.toNat) ∨ ¬ members.Nodup)
      ∧ (readLabel p 17 = none ↔
          (byteAt p 17).toNat = 0 ∨ 12 < (byteAt p 17).toNat
            ∨ ∃ b ∈ chars, b.toNat < 0x20 ∨ 0x7E < b.toNat)
      ∧ (readStatic p = none → exec (.addStatic f) s = .next (completed f .range [] s s))
      ∧ ∀ x, readStatic p = some x →
          (x.address = address ∧ x.terms.cls.val = (byteAt p 10).toNat ∧ x.terms.window = window
              ∧ x.terms.groups = members.map BitVec.toNat
              ∧ x.identity = (if flags.getLsbD 0 then some (identityAt p 2) else none)
              ∧ x.label = (if flags.getLsbD 1 then some chars else none))
            ∧ (∀ i, (entry s i).occupied → (entry s i).address = some x.address →
                exec (.addStatic f) s = .next (completed f .addressInUse [] s s))
            ∧ (∀ i y, AddressUnheld s x.address → x.identity = some y → (entry s i).occupied →
                (entry s i).identity = some y →
                  exec (.addStatic f) s = .next (completed f .identityInUse [] s s))
            ∧ (AddressUnheld s x.address → (∀ y, x.identity = some y → IdentityUnheld s y) →
                (∀ i, (entry s i).state ≠ .free) →
                  ((∀ i, (entry s i).state ≠ .held) →
                      exec (.addStatic f) s =
                        .next (completed f .tableFull [] s
                          { s with
                            change.partCauses := s.change.partCauses ||| partTableFull }))
                    ∧ ∀ i, Reclaimed s i →
                        let g := (entry s i).generation + 2
                        exec (.addStatic f) s =
                          .next (completed f .ok ([oneByte i.val] ++ word16Bytes g) s
                            (withCauses i (causeReleased ||| causeCreated)
                              (withEntry i
                                { Entry.freeAt g with
                                  state := .bound, origin := some .static,
                                  identity := x.identity, address := some x.address,
                                  terms := some x.terms, label := x.label } s))))

/-- R7, R170, R175: EDIT without notify. Fields out of range give RANGE (that flag bit 7 does is the
model's, log entry 4); a notice asked for in OFFLINE gives PHASE; a generation other than the entry's
STALE; an entry that is not live, or LEGACY, NOT_LIVE; a setting that the origin cannot hold RANGE; in
that order, and nothing changes. Each setting is read as its bytes stand, where its flag marks it present.
Otherwise each setting given replaces its field; the lease also sets remaining in BOUND; the generation
advances by 1 when class, window, groups or label changes and not for the lease; TERMS is handed when a
setting is carried. -/
def Obligations.EditReplacesSettings : Prop :=
  ∀ (f : CommandFrame) (s : State), Ready s → Framed 0x0B f → f.params.length = 26 →
    let p := f.params
    let flags := byteAt p 3
    let members := (p.drop 7).take (byteAt p 6).toNat
    let chars := (p.drop 12).take (byteAt p 11).toNat
    let refused (st : Status) : Prop := exec (.edit f) s = .next (completed f st [] s s)
    (readEdit p = none ↔
        159 < (byteAt p 0).toNat ∨ 127 < flags.toNat
          ∨ (flags.getLsbD 4 = true ∧ flags.getLsbD 5 = true)
          ∨ (flags.getLsbD 1 = true ∧ 7 < (byteAt p 4).toNat)
          ∨ (flags.getLsbD 2 = true ∧ ((byteAt p 5).toNat = 0 ∨ 64 < (byteAt p 5).toNat))
          ∨ (flags.getLsbD 3 = true ∧ readGroups p 6 = none)
          ∨ (flags.getLsbD 4 = true ∧ readLabel p 11 = none)
          ∨ (flags.getLsbD 6 = true ∧ (natAt p 24 2 = 0 ∨ 4095 < natAt p 24 2)))
      ∧ (readGroups p 6 = none ↔
          4 < (byteAt p 6).toNat ∨ (∃ b ∈ members, 13 < b.toNat) ∨ ¬ members.Nodup)
      ∧ (readLabel p 11 = none ↔
          (byteAt p 11).toNat = 0 ∨ 12 < (byteAt p 11).toNat
            ∨ ∃ b ∈ chars, b.toNat < 0x20 ∨ 0x7E < b.toNat)
      ∧ (readEdit p = none → refused .range)
      ∧ ∀ (x : EditFields) (e : Entry), readEdit p = some x → e = entry s x.index →
          x.index.val = (byteAt p 0).toNat ∧ x.expected = word16At p 1
            ∧ x.notify = flags.getLsbD 0
            ∧ x.cls.map Fin.val = (if flags.getLsbD 1 then some (byteAt p 4).toNat else none)
            ∧ x.window = (if flags.getLsbD 2 then some (byteAt p 5).toNat else none)
            ∧ x.groups = (if flags.getLsbD 3 then some (members.map BitVec.toNat) else none)
            ∧ x.label = (if flags.getLsbD 4 then some chars else none)
            ∧ x.clearLabel = flags.getLsbD 5
            ∧ x.lease = (if flags.getLsbD 6 then some (natAt p 24 2) else none)
            ∧ (x.notify = true → s.phase.phase = .offline → refused .phase)
            ∧ (x.notify = false ∨ s.phase.phase ≠ .offline →
                (e.generation ≠ x.expected → refused .stale)
                  ∧ (e.generation = x.expected →
                      (¬ e.live ∨ e.origin = some .legacy → refused .notLive)
                        ∧ (e.live → e.origin ≠ some .legacy →
                            (x.lease ≠ none ∧ e.origin = some .static)
                                ∨ ((x.label ≠ none ∨ x.clearLabel) ∧ e.origin = some .adopted) →
                              refused .range)))
            ∧ ∀ t, x.notify = false → e.generation = x.expected → e.live →
                e.origin ≠ some .legacy → e.terms = some t →
                (x.lease ≠ none → e.origin ≠ some .static) →
                (x.label ≠ none ∨ x.clearLabel → e.origin ≠ some .adopted) →
                  let changed := (edited x e t 0).terms ≠ e.terms ∨ (edited x e t 0).label ≠ e.label
                  ∃ g, (changed → g = e.generation + 1) ∧ (¬ changed → g = e.generation)
                    ∧ exec (.edit f) s =
                        .next (completed f .ok ([oneByte x.index.val] ++ word16Bytes g ++ [0]) s
                          (withCauses x.index (if x.hasSetting then causeTerms else 0)
                            (withEntry x.index (edited x e t g) s)))

/-- R7, R12, R13, R101, R102, R170, R177, R178: REVOKE and CONFIRM EVICT without notify. An index above
159, or an option byte above 1, gives RANGE; mode FREE, or action EVICT, is a 1 in the fourth byte, and
notify a 1 in the fifth; a notice asked for in OFFLINE PHASE; a generation other than the entry's STALE;
an entry that is not live, or for EVICT carries no dispute, NOT_LIVE; in that order, and nothing changes.
Otherwise the binding ends: with a hold (a leased entry, hold ticks above 0, and not mode FREE) the entry
becomes HELD with its cause, hold ticks remaining and no dispute, its generation advanced by 1 and STATE
handed; and if not it becomes FREE with RELEASED. A probe against it then concludes GONE. -/
def Obligations.HostEndsBinding : Prop :=
  ∀ (f : CommandFrame) (s : State), Ready s → f.params.length = 5 →
    let p := f.params
    let revokes (t : State) : Prop := Framed 0x0C f → exec (.revoke f) s = .next t
    let evicts (t : State) : Prop := Framed 0x0D f → exec (.confirmEvict f) s = .next t
    let refused (st : Status) : State := completed f st [] s s
    (readEnd p = none ↔
        159 < (byteAt p 0).toNat ∨ 1 < (byteAt p 3).toNat ∨ 1 < (byteAt p 4).toNat)
      ∧ (readEnd p = none → revokes (refused .range) ∧ evicts (refused .range))
      ∧ ∀ (x : EndFields) (e : Entry), readEnd p = some x → e = entry s x.index →
          let evicting := x.second = true
          x.index.val = (byteAt p 0).toNat ∧ x.expected = word16At p 1
            ∧ (x.second = true ↔ byteAt p 3 = 1) ∧ (x.notify = true ↔ byteAt p 4 = 1)
            ∧ (x.notify = true → s.phase.phase = .offline →
                revokes (refused .phase) ∧ (evicting → evicts (refused .phase)))
            ∧ (x.notify = false ∨ s.phase.phase ≠ .offline →
                (e.generation ≠ x.expected →
                    revokes (refused .stale) ∧ (evicting → evicts (refused .stale)))
                  ∧ (e.generation = x.expected →
                      (¬ e.live → revokes (refused .notLive))
                        ∧ (¬ (e.live ∧ e.dispute.present) → evicting →
                            evicts (refused .notLive))))
            ∧ ∀ after, x.notify = false → e.generation = x.expected → e.live →
                GoneThen s x.index after →
                  let ended (held : Bool) (cause : HeldCause) : State :=
                    after (completed f .ok
                      ([oneByte x.index.val] ++ word16Bytes (e.generation + 1) ++ [0]) s
                      (if held && e.leased && s.phase.params.hold != 0 then heldBy cause x.index s
                        else released x.index s))
                  revokes (ended (!x.second) .revoked)
                    ∧ (evicting → e.dispute.present → evicts (ended true .evicted))

/-- R7, R106, R170, R178: CONFIRM KEEP of a live entry with a dispute removes every reason, advances the
generation by 1 and hands no cause. Action KEEP is a 0 in the fourth byte. A field out of range gives
RANGE, a generation other than the entry's STALE, and an entry that is not live, or carries no dispute,
NOT_LIVE. -/
def Obligations.ConfirmKeepRemovesDispute : Prop :=
  ∀ (f : CommandFrame) (s : State), Ready s → Framed 0x0D f → f.params.length = 5 →
    let refused (st : Status) : Prop := exec (.confirmKeep f) s = .next (completed f st [] s s)
    (readEnd f.params = none ↔
        159 < (byteAt f.params 0).toNat ∨ 1 < (byteAt f.params 3).toNat
          ∨ 1 < (byteAt f.params 4).toNat)
      ∧ (readEnd f.params = none → refused .range)
      ∧ (∀ x : EndFields, readEnd f.params = some x →
          x.index.val = (byteAt f.params 0).toNat ∧ x.expected = word16At f.params 1
            ∧ (x.second = false ↔ byteAt f.params 3 = 0)
            ∧ (x.notify = true ↔ byteAt f.params 4 = 1))
      ∧ ∀ (x : EndFields) (e : Entry), readEnd f.params = some x → x.second = false →
          e = entry s x.index →
            (e.generation ≠ x.expected → refused .stale)
              ∧ (e.generation = x.expected → ¬ (e.live ∧ e.dispute.present) → refused .notLive)
              ∧ (e.generation = x.expected → e.live → e.dispute.present →
                  exec (.confirmKeep f) s =
                    .next (completed f .ok
                      ([oneByte x.index.val] ++ word16Bytes (e.generation + 1) ++ [0]) s
                      (withEntry x.index
                        { e with
                          generation := e.generation + 1, dispute := ⟨false, false⟩ } s)))

/-- R12, R13, R102, R164, R170, R176, R177, R178: EDIT, REVOKE and CONFIRM EVICT with notify, taken
outside OFFLINE. Each makes its whole change at once: the settings given, or the entry HELD with its cause
and STATE, or FREE with RELEASED, its generation advanced. The fields are those that EditReplacesSettings
and HostEndsBinding tie to the bytes. It hands over GRANT, or REVOKED with its reason, to the address the
entry held, with the engine as its waiter, and stays in hand for the notice's completion. A probe against
the entry that REVOKE or EVICT ends then concludes GONE. A notice that finds a full queue is dropped as
any other message, counted in ANSWER_DROPS with QUEUE_DROP set, and completes its command at once with
outcome DROPPED; with room the command stays in hand. That R170's words on counters speak of the notice's
production, and not of its drop, is the model's reading (log entry 26). -/
def Obligations.NoticeHoldsCommand : Prop :=
  (∀ (f : CommandFrame) (s : State) (e : Entry) (a : Nat), Ready s → s.phase.phase ≠ .offline →
    e.address = some a → e.live →
      let handing (m : Answer) (i : Index) (g : Word16) (t : State) : State :=
        handOver a m [.engine] (inHand f (.notice i g) s t)
      (∀ x t, Framed 0x0B f → f.params.length = 26 → readEdit f.params = some x → x.notify = true →
          e = entry s x.index → e.generation = x.expected → editable e → ¬ cannotHold x e →
          e.terms = some t →
            let changed := (edited x e t 0).terms ≠ e.terms ∨ (edited x e t 0).label ≠ e.label
            ∃ g, (changed → g = e.generation + 1) ∧ (¬ changed → g = e.generation)
              ∧ exec (.edit f) s =
                  .next (handing
                    (.grant (e.identity.getD 0) a (x.cls.getD t.cls) (x.window.getD t.window)
                      (orZero (x.lease.or e.lease)) s.phase.params.tickPeriod g) x.index g
                    (withCauses x.index (if x.hasSetting then causeTerms else 0)
                      (withEntry x.index (edited x e t g) s))))
        ∧ (∀ x after, f.params.length = 5 → readEnd f.params = some x → x.notify = true →
            e = entry s x.index → e.generation = x.expected → GoneThen s x.index after →
              let ended (held : Bool) (cause : HeldCause) (reason : RevokeReason) : State :=
                after (handing (.revoked (e.identity.getD 0) reason) x.index (e.generation + 1)
                  (if held && e.leased && s.phase.params.hold != 0 then heldBy cause x.index s
                    else released x.index s))
              (Framed 0x0C f → exec (.revoke f) s = .next (ended (!x.second) .revoked .host))
                ∧ (Framed 0x0D f → x.second = true → e.dispute.present →
                    exec (.confirmEvict f) s = .next (ended true .evicted .evicted))))
  ∧ ∀ (f : CommandFrame) (s t : State) (a : Nat) (m : Answer) (i : Index) (g : Word16),
      t.phase.phase ≠ .offline →
        let handed := handOver a m [.engine] (inHand f (.notice i g) s t)
        (t.port.queue.length < 16 →
            handed.host = hostAfter (.executing ⟨f.tag, f.code, f.params, .notice i g⟩) s)
          ∧ (16 ≤ t.port.queue.length →
              (∀ b ∈ t.port.queue.tail, ¬ (b.destination = a ∧ b.answer = m)) →
                handed =
                  completed f .ok ([oneByte i.val] ++ word16Bytes g ++ [2]) s
                    (setPart partQueueDrop (count .answerDrops t)))

/-! ### Reads -/

/-- R117, R171, R179, R180: READ-PARAMETER, READ-ENTRY, READ-CONTEXT and FIND-ADDRESS return the value or
record as it stands and change nothing; a name, index, context or address out of range gives RANGE, and an
address that no occupied entry holds NO_ENTRY. The records are spelled byte by byte as R186 lays them out:
the 42 bytes of an entry, of which a FREE one shows its state and generation alone; and the 51 bytes of a
context, with its timer's kind and its time still to run, in units of 10 ms rounded up, of which an IDLE
one shows its state, with no field marked present and no timer. The zeros beyond a groups field's count and
a label's length (log entry 30) and in the unnamed bits of the flag bytes (log entry 31) are the model's. -/
def Obligations.ReadsReturnRecords : Prop :=
  (∀ (f : CommandFrame) (s : State) (n : Byte), Ready s → f.params = [n] →
    (Framed 0x02 f →
        (∀ k, Param.ofNumber n.toNat = some k →
            exec (.readParameter f) s =
              .next (completed f .ok (beBytes 4 (s.phase.params.get k)) s s))
          ∧ (Param.ofNumber n.toNat = none →
              exec (.readParameter f) s = .next (completed f .range [] s s)))
      ∧ (Framed 0x0E f →
          (∀ h : n.toNat < 160,
              exec (.readEntry f) s =
                .next (completed f .ok (n :: entryRecord (entry s ⟨n.toNat, h⟩)) s s))
            ∧ (160 ≤ n.toNat → exec (.readEntry f) s = .next (completed f .range [] s s)))
      ∧ (Framed 0x11 f →
          (∀ h : n.toNat < 8,
              exec (.readContext f) s =
                .next (completed f .ok (contextRecord s.now (context s ⟨n.toNat, h⟩)) s s))
            ∧ (8 ≤ n.toNat → exec (.readContext f) s = .next (completed f .range [] s s)))
      ∧ (Framed 0x0F f →
          (n.toNat = 0 ∨ 239 < n.toNat →
              exec (.findAddress f) s = .next (completed f .range [] s s))
            ∧ (1 ≤ n.toNat → n.toNat ≤ 239 → AddressUnheld s n.toNat →
                exec (.findAddress f) s = .next (completed f .noEntry [] s s))
            ∧ (1 ≤ n.toNat → n.toNat ≤ 239 → ∀ i, HoldsAddress s i n.toNat →
                exec (.findAddress f) s =
                  .next (completed f .ok (oneByte i.val :: entryRecord (entry s i)) s s))))
  ∧ (∀ e, EntryLayout e (entryRecord e))
  ∧ (∀ e, EntrySound e → e.state = .free →
      entryRecord e = [0, 0, 0] ++ word16Bytes e.generation ++ List.replicate 37 0)
  ∧ (∀ now x, ContextLayout now x (contextRecord now (some x)))
  ∧ ∀ now, IdleLayout (contextRecord now none)

/-! ### The change unit -/

/-- R153: NEXT-CHANGE returns and empties the causes of the lowest entry that has any, with its record, as
ReadsReturnRecords spells it; or else the part causes; or else NONE; and the more flag tells whether
anything is pending after the clearing. The zeros in bits 7 to 5 of the causes are the model's (log entry
31). -/
def Obligations.NextChangeReports : Prop :=
  ∀ (f : CommandFrame) (s : State), Ready s → Framed 0x13 f → f.params = [] →
    let quiet := ∀ j : Index, s.change.entryCauses[j] = 0
    (∀ i, Lowest (fun j : Index => s.change.entryCauses[j] ≠ 0) i →
        ∃ more : Byte,
          (more = 1 ↔ (∃ j : Index, i < j ∧ s.change.entryCauses[j] ≠ 0)
            ∨ s.change.partCauses ≠ 0)
          ∧ (more = 0 ∨ more = 1)
          ∧ exec (.nextChange f) s =
              .next (completed f .ok
                ([1, more, oneByte i.val, s.change.entryCauses[i].setWidth 8]
                  ++ entryRecord (entry s i)) s
                { s with change.entryCauses := s.change.entryCauses.set i 0 }))
      ∧ (quiet → s.change.partCauses ≠ 0 →
          exec (.nextChange f) s =
            .next (completed f .ok [2, 0, s.change.partCauses.setWidth 8] s
              { s with change.partCauses := 0 }))
      ∧ (quiet → s.change.partCauses = 0 →
          exec (.nextChange f) s = .next (completed f .ok [0, 0] s s))

/-- R156: READ-COUNTERS returns the twelve counters in the order of R154 and, with the clear option,
sets every one to 0 in the same event; the part causes stay as they are. That an option byte other than 0
and 1 gives RANGE, as R186 has it for every option byte while R181 lists no refusal of this command, is
the model's (log entry 25). -/
def Obligations.CountersReadAndCleared : Prop :=
  ∀ (f : CommandFrame) (s : State) (n : Byte), Ready s → Framed 0x14 f → f.params = [n] →
    let data :=
      [Counter.joins, .grants, .refusals, .holdoffs, .renewals, .lapses, .duplicates, .collisions,
        .strays, .inboundDrops, .answerDrops, .badMessages].flatMap (fun c => beBytes 2 (counter s c))
    (n = 0 → exec (.readCounters f) s = .next (completed f .ok data s s))
      ∧ (n = 1 →
          ∃ t, exec (.readCounters f) s =
              .next (completed f .ok data s { s with change.counters := t })
            ∧ ∀ k : Fin 12, t[k] = 0)
      ∧ (1 < n.toNat → exec (.readCounters f) s = .next (completed f .range [] s s))

/-- R157: INTERRUPT-SETUP replaces the three enables in one event and returns them; a set that names
anything other than the five causes of its kind gives RANGE and changes no enable; no cause changes. After
a cold reset the master enable is off and both sets are empty. That a master option other than 0 and 1
gives RANGE too, as R186 has it for every option byte while R157 and R181 name the sets alone, is the
model's (log entry 25). -/
def Obligations.InterruptSetupReplacesEnables : Prop :=
  (∀ s : State, ∃ t, exec .coldReset s = .next t ∧ t.change.master = false
      ∧ t.change.entryEnable = 0 ∧ t.change.partEnable = 0)
  ∧ ∀ (f : CommandFrame) (s : State) (m e p : Byte), Ready s → Framed 0x15 f → f.params = [m, e, p] →
    (m.toNat ≤ 1 → e.toNat < 32 → p.toNat < 32 →
        exec (.interruptSetup f) s =
          .next (completed f .ok [m, e, p] s
            { s with
              change.master := m == 1, change.entryEnable := e.setWidth 5,
              change.partEnable := p.setWidth 5 }))
      ∧ (1 < m.toNat ∨ 32 ≤ e.toNat ∨ 32 ≤ p.toNat →
          exec (.interruptSetup f) s = .next (completed f .range [] s s))

/-- R158: the interrupt condition holds while some entry's cause set, or the part cause set, holds an
enabled cause; the output is asserted exactly while the master enable is on and the condition holds.
STATUS reports the condition whatever the master enable, and does not clear it. -/
def Obligations.InterruptFollowsCauses : Prop :=
  ∀ s : State,
    (interruptCondition s = true ↔
        (∃ (i : Index) (n : Nat), n < 5 ∧ (s.change.entryCauses[i]).getLsbD n = true
            ∧ s.change.entryEnable.getLsbD n = true)
          ∨ ∃ n, n < 5 ∧ s.change.partCauses.getLsbD n = true
            ∧ s.change.partEnable.getLsbD n = true)
      ∧ (interruptAsserted s = true ↔ s.change.master = true ∧ interruptCondition s = true)
      ∧ (Listening s → ∃ (t : State) (w : Byte), exec .status s = .next t ∧ t.host.transaction = .status w
          ∧ w.getLsbD 4 = interruptCondition s ∧ interruptCondition t = interruptCondition s)

/-- R154: an increment raises its counter by 1 below 65535 and leaves it there; the increment that
brings it to 65535 sets COUNTER_SATURATED and no other does; nothing else changes. -/
def Obligations.CounterStandsAtCeiling : Prop :=
  ∀ (c : Counter) (s : State),
    (counter s c < 65535 → counter (count c s) c = counter s c + 1)
      ∧ (65535 ≤ counter s c → count c s = s)
      ∧ (∀ d, d ≠ c → counter (count c s) d = counter s d)
      ∧ (count c s).change.partCauses =
          (if counter s c = 65534 then s.change.partCauses ||| partSaturated
            else s.change.partCauses)
      ∧ count c s = { s with
          change.counters := (count c s).change.counters
          change.partCauses := (count c s).change.partCauses }

/-! ### The host port -/

/-- R161, R165, R186: RESULT fixes its reply at the code byte: the result record in DONE, the single byte
NONE otherwise, and nothing else changes. The port sends filler FFh during the code byte, then the
reply's bytes, then filler, each byte most significant bit first. At the release, a record clocked out in
full makes the engine IDLE; one cut short leaves the engine as it is; and NONE changes nothing. That
RESULT_RELEASE is the release of a STATUS or an ABORT too, and then changes nothing else, is the model's
(log entry 10). -/
def Obligations.ResultTakenAtTwoEvents : Prop :=
  (∀ (s : State) (r : ResultRecord), Listening s → s.host.engine = .done r →
      let bytes := [r.tag, r.status.code, oneByte r.data.length] ++ r.data
      let read : State := { s with host.transaction := .result bytes true }
      exec .result s = .next read ∧ replyBytes read = bytes)
    ∧ (∀ s : State, Listening s → (∀ r, s.host.engine ≠ .done r) →
        let read : State := { s with host.transaction := .result [0x0C] false }
        exec .result s = .next read ∧ replyBytes read = [0x0C])
    ∧ (∀ s : State, hostDataOut s 0 = 0xFF
        ∧ (∀ k, k < (replyBytes s).length → some (hostDataOut s (k + 1)) = (replyBytes s)[k]?)
        ∧ (∀ k, (replyBytes s).length ≤ k → hostDataOut s (k + 1) = 0xFF)
        ∧ ∀ k n, n < 8 → hostBitOut s (8 * k + n) = (hostDataOut s k).getLsbD (7 - n))
    ∧ (∀ (s : State) (bytes : List Byte) (n : Nat), s.host.transaction = .result bytes true →
        exec (.resultRelease n) s =
          .next { s with
            host.transaction := .none
            host.engine := if bytes.length ≤ n then .idle else s.host.engine })
    ∧ (∀ (s : State) (bytes : List Byte) (n : Nat), s.host.transaction = .result bytes false →
        exec (.resultRelease n) s = .next { s with host.transaction := .none })
    ∧ ∀ (s : State) (n : Nat), s.host.transaction = .filler
          ∨ (∃ w, s.host.transaction = .status w) →
        exec (.resultRelease n) s = .next { s with host.transaction := .none }

/-- R166, R159, R186: STATUS replies with the word of phase, engine, interrupt condition, segment-alive
view and the two flags as they stand; then the flags are cleared and the latched-low flag is set if
alive is 0 and cleared if alive is 1. -/
def Obligations.StatusReportsAndClears : Prop :=
  ∀ s : State, Listening s → ∃ w : Byte,
    exec .status s =
        .next { s with
          host.transaction := .status w, host.rejected := false, host.resultLost := false,
          change.latchedLow := !s.port.alive }
      ∧ w.toNat % 4 = (match s.phase.phase with
          | .offline => 0 | .settling => 1 | .active => 2 | .suspended => 3)
      ∧ w.toNat / 4 % 4 = (match s.host.engine with
          | .idle => 0 | .executing _ => 1 | .done _ => 2)
      ∧ w.getLsbD 4 = interruptCondition s
      ∧ w.getLsbD 5 = (!s.change.latchedLow && s.port.alive)
      ∧ w.getLsbD 6 = s.host.rejected ∧ w.getLsbD 7 = s.host.resultLost

/-- R116, R167: ABORT has no effect on an engine that is IDLE or DONE. It ends a LOOKUP in its walk with
the records matched so far and the next index, and the walk of a waiting FIND is then started; it ends
a LOOKUP in the slot with no records and its own cursor; it ends an EDIT that waits for its notice,
leaving the notice in the queue without the engine as a waiter; and it has no effect on any other
command that executes. -/
def Obligations.AbortEndsLookupOrEdit : Prop :=
  ∀ (s : State), Listening s →
    ((∀ c, s.host.engine ≠ .executing c) →
        exec .abort s = .next { s with host.transaction := .filler })
      ∧ ∀ c : CommandRecord, s.host.engine = .executing c →
        let ended (data : List Byte) (u : LookupUnit) (q : List QueuedMessage) : State :=
          { s with
            host.transaction := .filler, host.engine := .done ⟨c.tag, .aborted, data⟩
            lookup := u, port.queue := q }
        let partWay (i : Index) (l : List LookupRecord) : List Byte :=
          [oneByte i.val, oneByte l.length] ++ l.flatMap LookupRecord.bytes
        (∀ r i l, c.work = .walk → s.lookup.walk = some (.host r i l) → s.lookup.hostSlot = none →
            (s.lookup.busWaiting = [] →
                exec .abort s =
                  .next (ended (partWay i l) { s.lookup with walk := none } s.port.queue))
              ∧ (∀ q rest, s.lookup.busWaiting = q :: rest →
                  exec .abort s =
                    .next (ended (partWay i l)
                      { s.lookup with
                        walk := some (.bus q q.cursor []), busWaiting := rest, lastStarted := .bus }
                      s.port.queue)))
          ∧ (∀ r b i l, c.work = .walk → s.lookup.walk = some (.bus b i l) →
              s.lookup.hostSlot = some r →
                exec .abort s =
                  .next (ended (partWay r.cursor []) { s.lookup with hostSlot := none }
                    s.port.queue))
          ∧ (∀ i g, c.work = .notice i g → c.code = 0x0B →
              exec .abort s =
                .next (ended ([oneByte i.val] ++ word16Bytes g ++ [3]) s.lookup
                  (s.port.queue.map
                    (fun m => { m with waiters := m.waiters.filter (· ≠ .engine) }))))
          ∧ (c.work = .attemptEnd ∨ (∃ i g, c.work = .notice i g ∧ c.code ≠ 0x0B) →
              exec .abort s = .next { s with host.transaction := .filler })

/-! ### Lookups -/

/-- R108, R109, R114: a FIND or a LOOKUP that reaches an idle lookup unit starts its walk at its cursor
with nothing matched; one that finds a walk in progress waits. A FIND that finds two FINDs waiting is
answered HOLDOFF with identity zero and exponent 1 and is not kept. When no walk is in progress, the
arbiter starts the walk of the one that waits, or the other asker's than the last where both wait. A
LOOKUP with a group of 14..254, a cursor above 159, or a filter byte above 1 gives RANGE and asks for no
walk; its fields, and a FIND's, are read as they stand, a state filter of 0 asking for live entries alone
and a dispute filter of 1 for those not in dispute. -/
def Obligations.LookupAndFindStart : Prop :=
  ∀ (s : State),
    let bus (q : FindRequest) (rest : List FindRequest) : State :=
      { s with
        lookup.walk := some (.bus q q.cursor []), lookup.busWaiting := rest,
        lookup.lastStarted := .bus }
    let host (h : LookupRequest) : State :=
      { s with
        lookup.walk := some (.host h h.cursor []), lookup.hostSlot := none,
        lookup.lastStarted := .host }
    (∀ (f : CommandFrame), Ready s → Framed 0x10 f → f.params.length = 20 →
        let p := f.params
        let group := (byteAt p 16).toNat
        let occupied := (byteAt p 18).toNat
        let exclude := (byteAt p 19).toNat
        (readLookup p = none ↔
            (14 ≤ group ∧ group ≤ 254) ∨ 159 < (byteAt p 17).toNat ∨ 1 < occupied ∨ 1 < exclude)
          ∧ (readLookup p = none → exec (.lookup f) s = .next (completed f .range [] s s))
          ∧ ∀ q, readLookup p = some q →
              q.pattern = identityAt p 0 ∧ q.mask = identityAt p 8 ∧ q.group = group
                ∧ q.cursor.val = (byteAt p 17).toNat ∧ (q.liveOnly = true ↔ occupied = 0)
                ∧ (q.excludeDisputed = true ↔ exclude = 1))
      ∧ (∀ (f : CommandFrame) (q : LookupRequest), Ready s → Framed 0x10 f → f.params.length = 20 →
        readLookup f.params = some q → s.lookup.hostSlot = none →
          (s.lookup.walk = none → s.lookup.busWaiting = [] →
              exec (.lookup f) s =
                .next (inHand f .walk s
                  { s with
                    lookup.walk := some (.host q q.cursor []), lookup.lastStarted := .host }))
            ∧ (∀ w, s.lookup.walk = some w →
                exec (.lookup f) s =
                  .next (inHand f .walk s { s with lookup.hostSlot := some q })))
      ∧ (∀ (r : Request) (rest : List Request), Front s r rest → r.kind = .find →
          let q := readFind r.source r.payload
          (¬ ContentError .find r.payload →
              q.source = r.source ∧ q.pattern = identityAt r.payload 0
                ∧ q.mask = identityAt r.payload 8 ∧ q.group = (byteAt r.payload 16).toNat
                ∧ q.cursor.val = (byteAt r.payload 17).toNat)
            ∧ (s.lookup.walk = none → s.lookup.busWaiting = [] → s.lookup.hostSlot = none →
              exec .find s =
                .next { popped rest s with
                  lookup.walk := some (.bus q q.cursor []), lookup.lastStarted := .bus })
            ∧ (∀ w, s.lookup.walk = some w → s.lookup.busWaiting.length < 2 →
                exec .find s =
                  .next { popped rest s with
                    lookup.busWaiting := s.lookup.busWaiting ++ [q] })
            ∧ (2 ≤ s.lookup.busWaiting.length →
                exec .find s =
                  .next (send r.source (.holdoff 0 1 s.phase.params.holdoffUnit)
                    (count .holdoffs (popped rest s)))))
      ∧ (∀ w, s.lookup.walk = some w → arbitrate s = s)
      ∧ (s.lookup.walk = none →
          (s.lookup.busWaiting = [] → s.lookup.hostSlot = none → arbitrate s = s)
            ∧ (∀ q rest, s.lookup.busWaiting = q :: rest →
                s.lookup.hostSlot = none ∨ s.lookup.lastStarted = .host →
                  arbitrate s = bus q rest)
            ∧ (∀ h, s.lookup.hostSlot = some h →
                s.lookup.busWaiting = [] ∨ s.lookup.lastStarted = .bus → arbitrate s = host h))

/-- R109, R110, R111, R112, R114, R115, R116: one examination reads the entry at the next index as it
stands. A FIND's matches a live NEGOTIATED or ADOPTED entry, or a STATIC one with an identity, that
carries no dispute, agrees with the pattern under the mask and holds the group or the group is 255. A
LOOKUP's matches an entry that is live, or occupied where asked, carries no dispute where disputed ones
are excluded, agrees with the pattern under the mask, or has no identity and the mask is zero, and holds
the group or the group is 255. The walk goes on at the next index, or ends at its fourth or eighth record
or at entry 159: with FOUND, or with the LOOKUP completed OK with the cursor, the count and the records of
fourteen bytes each. That OCCUPIED matches a HELD entry whose binding ended during the walk is the model's
(log entry 28), and so are the zeros in the unnamed bits of a record's flags (log entry 31). The cursor is
the index after the last entry examined, or 255. The arbiter then decides. -/
def Obligations.WalkExaminesOneEntry : Prop :=
  ∀ (s : State) (i : Index),
    let e := entry s i
    let cursor := if i.val = 159 then 255 else i.val + 1
    let inGroup (g : Nat) : Prop := g = 255 ∨ ∃ t, e.terms = some t ∧ g ∈ t.groups
    (∀ (r : FindRequest) (l : List FoundRecord), s.lookup.walk = some (.bus r i l) → l.length < 4 →
      ∃ l' : List FoundRecord,
        (∀ x a t, (e.state = .bound ∨ e.state = .lapsing) → e.origin ≠ none →
            e.origin ≠ some .legacy → e.dispute = ⟨false, false⟩ → e.identity = some x →
            e.address = some a → e.terms = some t → x &&& r.mask = r.pattern &&& r.mask →
            inGroup r.group → l' = l ++ [⟨x, a, t.cls, e.generation⟩])
          ∧ (¬ (e.state = .bound ∨ e.state = .lapsing) ∨ e.identity = none
                ∨ e.dispute.present = true ∨ e.origin = some .legacy
                ∨ (∃ x, e.identity = some x ∧ x &&& r.mask ≠ r.pattern &&& r.mask)
                ∨ ¬ inGroup r.group →
              l' = l)
          ∧ l'.length ≤ 4
          ∧ (l'.length < 4 → i.val < 159 →
              ∃ j : Index, j.val = i.val + 1
                ∧ exec .walkExamination s = .next { s with lookup.walk := some (.bus r j l') })
          ∧ (l'.length = 4 ∨ i.val = 159 →
              exec .walkExamination s =
                .next (arbitrate (send r.source (.found cursor l') { s with lookup.walk := none }))))
      ∧ (∀ q : LookupRecord, LookupLayout q q.bytes)
      ∧ ∀ (r : LookupRequest) (l : List LookupRecord) (c : CommandRecord),
          s.lookup.walk = some (.host r i l) → l.length < 8 → s.host.engine = .executing c →
            let passes : Prop :=
              (if r.liveOnly then e.state = .bound ∨ e.state = .lapsing else e.state ≠ .free)
                ∧ (r.excludeDisputed → e.dispute = ⟨false, false⟩)
                ∧ (∀ x, e.identity = some x → x &&& r.mask = r.pattern &&& r.mask)
                ∧ (e.identity = none → r.mask = 0) ∧ inGroup r.group
            ∃ l' : List LookupRecord,
              (passes → l' = l ++
                  [⟨i, e.state, e.origin, e.identity, orZero e.address, e.generation, e.dispute⟩])
                ∧ (¬ passes → l' = l)
                ∧ (l'.length < 8 → i.val < 159 →
                    ∃ j : Index, j.val = i.val + 1
                      ∧ exec .walkExamination s =
                          .next { s with lookup.walk := some (.host r j l') })
                ∧ (l'.length = 8 ∨ i.val = 159 →
                    exec .walkExamination s =
                      .next (arbitrate
                        { s with
                          lookup.walk := none
                          host.engine := .done ⟨c.tag, .ok,
                            [oneByte cursor, oneByte l'.length] ++ l'.flatMap LookupRecord.bytes⟩ }))

/-! ### Receiving -/

/-- R108, R120, R121, R122, R123, R135: what is heard while an attempt of the part is under way, or in a
carrier period that overlaps one, is discarded whole. A request to the directory heard during an attempt
that survived PORT-RESTART is handled instead as any other, though the quiet time does not start anew;
that this holds of such requests alone, and of nothing else heard then, is the model's reading of R120 and
R135 (log entry 24). Otherwise a frame error is discarded and counted, in every phase. In OFFLINE a valid
message refreshes segment-alive and nothing else. Outside it the message is first reported, if its source
is in 1..239; then a source of 0 or an answer kind counts STRAYS; a request addressed elsewhere goes no
further; and a request to the directory joins the back of the inbound buffer, or at a full buffer is
dropped, counted, and QUEUE_DROP is set, unless its content is in error: then the port refuses it
MALFORMED at once, with its own identity if it carries one, and identity zero for a FIND. -/
def Obligations.MessageReceived : Prop :=
  ∀ (s : State) (bytes : List Byte) (extra : Nat),
    let heardAs (t : State) : Prop := exec (.receiveMessage bytes extra) s = .next t
    let silenced : State := { s with port.carrier := false, port.overlapped := false }
    let handled (m : Heard) (alive : State) : Prop :=
      let seen := observe m.source m.bound alive
      (m.source = 0 ∨ 239 < m.source → seen = alive)
        ∧ (m.source = 0 ∨ 8 ≤ m.kind → heardAs (count .strays seen))
        ∧ ∀ k : ReqKind, m.source ≠ 0 → requestCode k = m.kind →
            (m.destination ≠ 0 → heardAs seen)
              ∧ (m.destination = 0 → ¬ ContentError k m.payload →
                  (s.port.inbound.length < 4 →
                      heardAs { seen with
                        port.inbound := s.port.inbound ++ [⟨m.source, m.bound, k, m.payload⟩] })
                    ∧ (4 ≤ s.port.inbound.length →
                        heardAs (setPart partQueueDrop (count .inboundDrops seen))))
              ∧ (m.destination = 0 → ContentError k m.payload →
                  let x := if k ≠ .find ∧ 8 ≤ m.payload.length then identityAt m.payload 0 else 0
                  heardAs (send m.source (.refuse x k .malformed) (count .refusals seen)))
    (attemptUnderWay s →
        (s.port.surviving = false ∨ s.phase.phase = .offline ∨ readFrame bytes extra = none →
            heardAs silenced)
          ∧ ∀ m, s.port.surviving = true → s.phase.phase ≠ .offline →
              readFrame bytes extra = some m →
                let asked : Prop := m.source ≠ 0 ∧ m.kind < 8 ∧ m.destination = 0
                (¬ asked → heardAs silenced)
                  ∧ (asked →
                      handled m { silenced with
                        port.alive := true
                        port.silence := some (s.now + s.phase.params.segmentSilence * 50000) }))
      ∧ (¬ attemptUnderWay s → s.port.overlapped = true → heardAs (heard s))
      ∧ (Hearing s → readFrame bytes extra = none → heardAs (count .badMessages (heard s)))
      ∧ ∀ m, Hearing s → readFrame bytes extra = some m →
          (s.phase.phase = .offline → heardAs (aliveAfter s))
            ∧ (s.phase.phase ≠ .offline → handled m (aliveAfter s))

/-- R87, R88, R89, R90, R91, R92, R121: traffic between stations, from a source in 1..239, outside
OFFLINE. With the bound flag clear: an unheld address is learned as LEGACY in the lowest FREE entry while
learning is on, and with none FREE TABLE_FULL is set; a RESERVED entry's context is closed with
REFUSE(RETRY), of a free request kind (log entry 2), its entry freed and the address learned; a HELD
entry is freed and its address learned while learning is on, and is left as it is otherwise; a LEGACY
entry's silence allowance is refreshed; a live leased entry, or a STATIC one with an identity, gains
ADDRESS_COLLISION, its generation advanced and DISPUTE handed, counted once; a STATIC entry without an
identity is left as it is. With the bound flag set, an address that is unheld or LEGACY counts STRAYS
outside SETTLING, and nothing else happens. -/
def Obligations.TrafficReported : Prop :=
  ∀ (s : State) (bytes : List Byte) (m : Heard), Hearing s → readFrame bytes 0 = some m →
    s.phase.phase ≠ .offline → 1 ≤ m.source → m.source ≤ 239 → m.destination ≠ 0 →
    1 ≤ m.kind → m.kind ≤ 7 →
      let a := m.source
      let u := aliveAfter s
      let becomes (t : State) : Prop := exec (.receiveMessage bytes 0) s = .next t
      (m.bound = false →
          (AddressUnheld s a → ∃ t, LearnedFrom a u t ∧ becomes t)
            ∧ ∀ (i : Index) (e : Entry), HoldsAddress s i a → e = entry s i →
                (∀ c x o, e.state = .reserved → context s c = some x → x.stage = .offered o →
                    o.entry = i →
                    (∀ d y p, context s d = some y → y.stage = .offered p → p.entry = i → d = c) →
                      ∃ k t, LearnedFrom a
                          (send 254 (.refuse x.identity k .retry)
                            (count .refusals
                              { released i u with
                                join.contexts := s.join.contexts.set c none
                                freeUsed := s.freeUsed + 1 })) t
                        ∧ becomes t)
                  ∧ (e.state = .held → s.phase.params.legacyLearning = true →
                      ∃ t, LearnedFrom a (released i u) t ∧ becomes t)
                  ∧ (e.state = .held → s.phase.params.legacyLearning = false → becomes u)
                  ∧ (e.state = .bound → e.origin = some .legacy →
                      becomes (withEntry i
                        { e with remaining := some s.phase.params.legacySilence } u))
                  ∧ (e.live → e.leased ∨ (e.origin = some .static ∧ e.identity ≠ none) →
                      (e.dispute.collision = false → becomes (collided i u))
                        ∧ (e.dispute.collision = true → becomes u))
                  ∧ (e.live → e.origin = some .static → e.identity = none → becomes u))
        ∧ (m.bound = true →
            (s.phase.phase = .settling → becomes u)
              ∧ (s.phase.phase ≠ .settling →
                  (AddressUnheld s a → becomes (count .strays u))
                    ∧ ∀ i, HoldsAddress s i a →
                        ((entry s i).origin = some .legacy → becomes (count .strays u))
                          ∧ ((entry s i).origin ≠ some .legacy → becomes u)))

/-! ### Joining -/

/-- R64 to R71, R47, R58, R61: a JOIN through its checks. A source other than 254 is refused MALFORMED; so
is, outside SETTLING, a payload not of 15 bytes, an empty class set, or a hint above 239. Against a
context of its identity a repeat of the same incarnation is answered NOTED with turn 0, not at all, or
with the same TERMS; for another incarnation the context is closed silently, an offer's entry freed, and
the JOIN is handled as without it. A STATIC entry of the identity is granted, with lease 0, before
admission; an identity not admitted is refused ADMISSION. A live entry with DUPLICATE_IDENTITY refuses
DUPLICATE; under the same incarnation, with the more flag clear, it is renewed with the clamped lease and
its terms are granted. Otherwise a context is needed: SUSPENDED refuses it, and in ACTIVE with no IDLE
context the JOIN is held off through the deferral list. The lowest IDLE context is taken with the JOIN's
fields, as the payload's bytes spell them, a lease above 4095 read as 4095, the verdict's caps and the
target, to be probed where it is live under another incarnation; the identity leaves the deferral list and
JOINS is counted. With the more flag set it collects pages from turn 0 and NOTED with turn 0 is sent; with
it clear it is resolved at once. -/
def Obligations.JoinTakesContext : Prop :=
  ∀ (s : State) (r : Request) (rest : List Request), Front s r rest → r.kind = .join →
    let p := s.phase.params
    let j := readJoin r.payload
    let u := popped rest s
    let answers (t : State) : Prop := exec .join s = .next t
    let refused (reason : Reason) : State :=
      send 254 (.refuse j.identity .join reason) (count .refusals u)
    let sound :=
      r.payload.length = 15 ∧ byteAt r.payload 10 ≠ 0 ∧ (byteAt r.payload 13).toNat ≤ 239
    (j.identity = (if 8 ≤ r.payload.length then identityAt r.payload 0 else 0)
        ∧ j.incarnation = word16At r.payload 8 ∧ j.classSet = byteAt r.payload 10
        ∧ (natAt r.payload 11 2 ≤ 4095 → j.lease = natAt r.payload 11 2)
        ∧ (4095 < natAt r.payload 11 2 → j.lease = 4095)
        ∧ j.hint = (byteAt r.payload 13).toNat ∧ j.more = (byteAt r.payload 14).getLsbD 0)
      ∧ (r.source ≠ 254 → answers (refused .malformed))
      ∧ (r.source = 254 → s.phase.phase ≠ .settling → ¬ sound → answers (refused .malformed))
      ∧ (r.source = 254 → s.phase.phase ≠ .settling → sound →
          (∀ c x, HoldsContext s c x → x.identity = j.identity →
              (x.incarnation = j.incarnation →
                  (∀ d, x.stage = .collecting d → answers (send 254 (.noted j.identity 0) u))
                    ∧ (x.checking → answers u)
                    ∧ (∀ o, x.stage = .offered o →
                        answers (send 254
                          (.terms j.identity o.turn o.cls o.address o.window o.lease p.tickPeriod)
                          u)))
                ∧ (x.incarnation ≠ j.incarnation →
                    exec .join s = exec .join (contextClosed c x s)))
            ∧ (NoContext s j.identity →
                (∀ i e a t, HoldsIdentity s i j.identity → e = entry s i →
                    e.origin = some .static → e.address = some a → e.terms = some t →
                      answers (send 254
                        (.grant j.identity a t.cls t.window 0 p.tickPeriod e.generation)
                        (count .grants u)))
                  ∧ ((∀ i, (entry s i).occupied → (entry s i).identity = some j.identity →
                        (entry s i).origin ≠ some .static) →
                      (verdict s j.identity = none → answers (refused .admission))
                        ∧ ∀ caps, verdict s j.identity = some caps →
                            (∀ i e, HoldsIdentity s i j.identity → e = entry s i → e.live →
                                (e.dispute.duplicate = true → answers (refused .duplicate))
                                  ∧ (∀ a t, e.dispute.duplicate = false →
                                      e.incarnation = some j.incarnation → j.more = false →
                                      e.address = some a → e.terms = some t →
                                        let lapsed := e.state = .lapsing
                                        let g := if lapsed then e.generation + 1 else e.generation
                                        let lease := clampLease p j.lease none
                                        answers (send 254
                                          (.grant j.identity a t.cls t.window lease p.tickPeriod g)
                                          (count .grants
                                            (withCauses i (if lapsed then causeState else 0)
                                              (withEntry i
                                                { e with
                                                  state := .bound, generation := g,
                                                  lease := some lease, remaining := some lease }
                                                u))))))
                              ∧ ∀ target probe, JoinTarget s j target probe →
                                  (s.phase.phase = .suspended → answers (refused .suspended))
                                    ∧ (s.phase.phase = .active → (∀ c, context s c ≠ none) →
                                        answers (holdoff j.identity u))
                                    ∧ ∀ c, s.phase.phase = .active →
                                        Lowest (fun d => context s d = none) c →
                                          let t := contextTaken c j caps target probe u
                                          (j.more = true →
                                              answers (send 254 (.noted j.identity 0) t))
                                            ∧ (j.more = false → answers (resolve c t)))))

/-- R9, R17, R18, R21, R32, R75, R77, R78, R79: resolution from step 2 on offers terms: the first class of
the priority order that lies in the three sets; its window cap or a smaller request; the lease, clamped as
KeepAdopted spells it out; the target's address, a free hint, or the lowest free address of the grant
range; and the target, the lowest FREE entry, or the HELD entry of least remaining time. The entry becomes
RESERVED, its generation advanced, and shows its causes; the context becomes OFFERED, and TERMS of the next
turn is sent. Without such a class it is refused NO_CLASS, without such an address NO_ADDRESS, without such
an entry TABLE_FULL with that part cause, and RETRY where another entry holds the address or the identity;
the context is closed and no entry changes. That these refusals carry the kind JOIN is the model's (log
entry 9). A JOIN with the more flag clear, in ACTIVE, of an admitted identity that no context holds, and no
entry or a HELD leased one, takes the lowest IDLE context and is offered terms so at once. -/
def Obligations.JoinOffersTerms : Prop :=
  (∀ (s : State) (c : CtxNum) (x : Exchange) (target : Option Index), context s c = some x →
    (∀ o, x.stage ≠ .offered o) → TargetSettled s x target →
      let p := s.phase.params
      let refused (r : Reason) (t : State) : Prop :=
        resolveTerms c s =
          send 254 (.refuse x.identity .join r)
            (count .refusals { t with join.contexts := s.join.contexts.set c none })
      ((∀ cls, ¬ ClassChosen p x.classSet x.classCap cls) → refused .noClass s)
        ∧ ∀ cls, ClassChosen p x.classSet x.classCap cls →
            (target = none → (∀ a, ¬ AddressChosen s x.hint a) → refused .noAddress s)
              ∧ (∀ a, target = none → AddressChosen s x.hint a →
                  (∀ i, (entry s i).state ≠ .free ∧ (entry s i).state ≠ .held) →
                    refused .tableFull (setPart partTableFull s))
              ∧ (∀ a i advance causes, EntryTaken s target i advance causes →
                  (target = some i ∧ (entry s i).address = some a)
                      ∨ (target = none ∧ AddressChosen s x.hint a) →
                  (∃ j, j ≠ i ∧ (entry s j).occupied ∧ ((entry s j).address = some a
                    ∨ (entry s j).identity = some x.identity)) →
                    refused .retry s)
              ∧ ∀ a i advance causes, EntryTaken s target i advance causes →
                  Placed s x.identity x.hint target i a → (entry s i).state ≠ .reserved →
                    resolveTerms c s = offerMade c x target i a cls advance causes s)
  ∧ ∀ (s : State) (r : Request) (rest : List Request) (c : CtxNum) (caps : Caps)
      (target : Option Index) (i : Index) (a : Nat) (cls : Cls) (advance : Word16)
      (causes : CauseSet), Front s r rest → r.kind = .join → r.source = 254 →
      s.phase.phase = .active → joinContentOk r.payload = true →
        let j := readJoin r.payload
        NoContext s j.identity → verdict s j.identity = some caps →
        Lowest (fun d => context s d = none) c → j.more = false →
        (∀ k, target = some k → (entry s k).state = .held ∧ (entry s k).leased) →
        Placed s j.identity j.hint target i a → EntryTaken s target i advance causes →
        ClassChosen s.phase.params j.classSet caps.classes cls →
          let x : Exchange :=
            { identity := j.identity, incarnation := j.incarnation, classSet := j.classSet,
              requestedLease := j.lease, hint := j.hint, lastTurn := 0, pagesTaken := 0,
              groupsPage := none, windowRequest := none, label := none, classCap := caps.classes,
              leaseCap := caps.lease, target := target, probeNeeded := false,
              stage := .collecting 0 }
          exec .join s =
            .next (offerMade c x target i a cls advance causes
              (count .joins
                { popped rest s with
                  admission.deferrals :=
                    s.admission.deferrals.filter (fun d => d.identity ≠ j.identity) }))

/-- R63, R64, R72 to R74, R185: an EXTEND from a source other than 254, or of fewer than 12 bytes, is
refused MALFORMED; one that no context of its identity meets is refused SEQUENCE; nothing else changes.
Against a COLLECTING context its turn decides. A page is good when the payload is 12 bytes longer than its
page length and the page is of kind 1, up to four distinct groups 0..13; 2, one window 1..64; or 3, a
label of 1..12 characters 20h..7Eh. A good page of the next turn, with fewer than six taken, is taken:
pages taken rises by 1, the last acknowledged turn becomes its turn, NOTED of that turn is sent and the
page timer restarts; with the more flag clear the context then goes on to resolution. A bad page closes
the context with REFUSE(MALFORMED), and a seventh with REFUSE(PAGES). A repeat of the last turn is noted
again and changes nothing. Any other turn closes the context with REFUSE(SEQUENCE). Against a CHECKING or
an OFFERED context a repeat of the last turn is not answered, or answered with the same TERMS, and changes
nothing; any other turn closes the context with REFUSE(SEQUENCE), an offer's entry freed. -/
def Obligations.ExtendTakesPage : Prop :=
  ∀ (s : State) (r : Request) (rest : List Request), Front s r rest → r.kind = .extend →
    let id := payloadIdentity r.payload
    let u := popped rest s
    let turn := (byteAt r.payload 8).toNat
    let more := byteAt r.payload 9 ≠ 0
    let answers (t : State) : Prop := exec .extend s = .next t
    let refused (reason : Reason) (t : State) : State :=
      send 254 (.refuse id .extend reason) (count .refusals t)
    let len := (byteAt r.payload 11).toNat
    let body := r.payload.drop 12
    let paged (kind : Byte) : Prop := r.payload.length = 12 + len ∧ byteAt r.payload 10 = kind
    (∀ l, readPage r.payload = some (.groups l) ↔
        paged 1 ∧ len ≤ 4 ∧ (∀ b ∈ body, b.toNat ≤ 13) ∧ body.Nodup ∧ l = body.map BitVec.toNat)
      ∧ (∀ w, readPage r.payload = some (.window w) ↔
          paged 2 ∧ len = 1 ∧ 1 ≤ w ∧ w ≤ 64 ∧ w = (byteAt r.payload 12).toNat)
      ∧ (∀ l, readPage r.payload = some (.label l) ↔
          paged 3 ∧ 1 ≤ len ∧ len ≤ 12 ∧ (∀ b ∈ body, 0x20 ≤ b.toNat ∧ b.toNat ≤ 0x7E) ∧ l = body)
      ∧ (r.source ≠ 254 ∨ r.payload.length < 12 → answers (refused .malformed u))
      ∧ (r.source = 254 → 12 ≤ r.payload.length → NoContext s id → answers (refused .sequence u))
      ∧ ∀ c x, r.source = 254 → 12 ≤ r.payload.length → HoldsContext s c x → x.identity = id →
          let closed (reason : Reason) : State := refused reason (contextClosed c x u)
          (∀ d, x.stage = .collecting d →
            (∀ g, turn = x.lastTurn + 1 → readPage r.payload = some g → x.pagesTaken ≠ 6 →
                let y : Exchange := match g with
                  | .groups l => { x with groupsPage := some l }
                  | .window w => { x with windowRequest := some w }
                  | .label l => { x with label := some l }
                let taken : State :=
                  send 254 (.noted id turn)
                    { u with
                      join.contexts := s.join.contexts.set c
                        (some { y with
                          pagesTaken := x.pagesTaken + 1, lastTurn := turn,
                          stage := .collecting (s.now + s.phase.params.pageTimeout * 10000) }) }
                (more → answers taken) ∧ (¬ more → answers (resolve c taken)))
              ∧ (turn = x.lastTurn + 1 → readPage r.payload = none → answers (closed .malformed))
              ∧ (turn = x.lastTurn + 1 → readPage r.payload ≠ none → x.pagesTaken = 6 →
                  answers (closed .pages))
              ∧ (turn = x.lastTurn → answers (send 254 (.noted id turn) u))
              ∧ (turn ≠ x.lastTurn → turn ≠ x.lastTurn + 1 → answers (closed .sequence)))
            ∧ (x.checking →
                (turn = x.lastTurn → answers u) ∧ (turn ≠ x.lastTurn → answers (closed .sequence)))
            ∧ (∀ o, x.stage = .offered o →
                (turn = x.lastTurn →
                    answers (send 254
                      (.terms id o.turn o.cls o.address o.window o.lease
                        s.phase.params.tickPeriod) u))
                  ∧ (turn ≠ x.lastTurn → answers (closed .sequence)))

/-- R10, R63, R64, R80, R81: an AGREE from a source other than 254, not of eleven bytes, or of a class
above 7, is refused MALFORMED and changes no context. Against an OFFERED context, accepted with the TERMS
turn and the offered class, it binds: the entry is BOUND with the offered lease and remaining, its
generation advanced by 1 and STATE handed, the context is IDLE, GRANTS is counted and GRANT carries the
terms and the new generation. Declined, whatever its turn and class, it is answered CLOSED; accepted with
another turn it is refused SEQUENCE, and with the turn but another class MALFORMED; each closes the context
and frees the entry, with RELEASED handed. Against a COLLECTING or CHECKING context it is refused SEQUENCE
and the context is closed. Without a context, an accepted one is answered GRANT with the terms and lease
of the identity's BOUND NEGOTIATED entry of that class, and every other is refused SEQUENCE; GRANTS is not
counted again and nothing else changes. -/
def Obligations.AgreeBindsOrDeclines : Prop :=
  ∀ (s : State) (r : Request) (rest : List Request), Front s r rest → r.kind = .agree →
    let id := payloadIdentity r.payload
    let u := popped rest s
    let turn := (byteAt r.payload 8).toNat
    let accepted := byteAt r.payload 9 ≠ 0
    let cls := (byteAt r.payload 10).toNat
    let period := s.phase.params.tickPeriod
    let answers (t : State) : Prop := exec .agree s = .next t
    let refused (reason : Reason) (t : State) : State :=
      send 254 (.refuse id .agree reason) (count .refusals t)
    (r.source ≠ 254 ∨ r.payload.length ≠ 11 ∨ 7 < cls → answers (refused .malformed u))
      ∧ (r.source = 254 → r.payload.length = 11 → cls ≤ 7 →
          (∀ c x, HoldsContext s c x → x.identity = id →
              let closed := contextClosed c x u
              ((∀ o, x.stage ≠ .offered o) → answers (refused .sequence closed))
                ∧ ∀ o e, x.stage = .offered o → e = entry s o.entry →
                    let g := e.generation + 1
                    (accepted → turn = o.turn → cls = o.cls.val →
                        answers (send 254 (.grant id o.address o.cls o.window o.lease period g)
                          (count .grants
                            { withCauses o.entry causeState
                                (withEntry o.entry
                                  { e with
                                    state := .bound, origin := some .negotiated, generation := g,
                                    lease := some o.lease, remaining := some o.lease } u) with
                              join.contexts := s.join.contexts.set c none })))
                      ∧ (¬ accepted → answers (send 254 (.closed id) closed))
                      ∧ (accepted → turn ≠ o.turn → answers (refused .sequence closed))
                      ∧ (accepted → turn = o.turn → cls ≠ o.cls.val →
                          answers (refused .malformed closed)))
            ∧ (NoContext s id →
                let standing (e : Entry) : Prop :=
                  e.state = .bound ∧ e.origin = some .negotiated
                    ∧ ∃ t, e.terms = some t ∧ t.cls.val = cls
                (∀ i e a t l, HoldsIdentity s i id → e = entry s i → accepted → standing e →
                    e.address = some a → e.terms = some t → e.lease = some l →
                      answers (send 254 (.grant id a t.cls t.window l period e.generation) u))
                  ∧ (¬ accepted ∨ IdentityUnheld s id
                        ∨ (∃ i, HoldsIdentity s i id ∧ ¬ standing (entry s i)) →
                      answers (refused .sequence u))))

/-- R75, R76, R94, R97 to R101: resolution probes a live target of another incarnation where a probe is
needed, with a CHECK to its address for which the context waits, and otherwise goes on at step 2. A REPLY
from the probed address, of the entry's identity, whose incarnation is the entry's own or is not the
joiner's, decides DUPLICATE: the entry's dispute gains DUPLICATE_IDENTITY, with its generation advanced by
1 and DISPUTE handed, DUPLICATES and REFUSALS are counted, the context is closed and the joiner is refused
DUPLICATE, the request kind being a free value (log entry 2). One of the joiner's incarnation and not the
entry's decides SAME_STATION: resolution goes on at step 2. One of another identity gives the entry
ADDRESS_COLLISION, closes the context, and holds the joiner off. A REPLY from an address that no probe
targets counts STRAYS and changes nothing else, but that it is recorded as the late answer of a holder that
lost the entry, which is the model's (log entry 27). -/
def Obligations.ReplyDecidesProbe : Prop :=
  (∀ (s : State) (c : CtxNum) (x : Exchange) (target : Option Index), context s c = some x →
    TargetSettled s x target →
      let probes (i : Index) : Prop :=
        x.probeNeeded = true ∧ (entry s i).live ∧ (entry s i).incarnation ≠ some x.incarnation
      (∀ i a, target = some i → probes i → (entry s i).address = some a →
          resolve c s =
            handOver a (.check x.identity) [.context c s.join.nextToken]
              { s with
                join.contexts := s.join.contexts.set c
                  (some { x with
                    target := some i, stage := .checking 1 (.awaiting s.join.nextToken) })
                join.nextToken := s.join.nextToken + 1 })
        ∧ ((∀ i, target = some i → ¬ probes i) → resolve c s = resolveTerms c s))
  ∧ ∀ (s : State) (r : Request) (rest : List Request), Front s r rest → r.kind = .reply →
    (∀ (c : CtxNum) (x : Exchange) (i : Index) (e : Entry), HoldsAddress s i r.source →
        context s c = some x → ProbedBy s i c → e = entry s i → e.live →
        let same := e.identity = some (payloadIdentity r.payload)
        let own := e.incarnation = some (word16At r.payload 8)
        let joiner := x.incarnation = word16At r.payload 8
        let closed (t : State) : State := { t with join.contexts := s.join.contexts.set c none }
        (same → own ∨ ¬ joiner → e.dispute.duplicate = false →
          ∃ k, exec .reply s =
              .next (send 254 (.refuse x.identity k .duplicate)
                (count .refusals
                  { closed (count .duplicates (withCauses i causeDispute
                      (withEntry i
                        { e with
                          generation := e.generation + 1
                          dispute := { e.dispute with duplicate := true } } (popped rest s)))) with
                    freeUsed := s.freeUsed + 1 })))
          ∧ (same → ¬ own → joiner → exec .reply s = .next (resolveTerms c (popped rest s)))
          ∧ (¬ same →
              exec .reply s =
                .next (holdoff x.identity
                  (closed (if e.dispute.collision then popped rest s
                    else collided i (popped rest s))))))
      ∧ (AddressUnheld s r.source → exec .reply s = .next (count .strays (popped rest s)))
      ∧ (∀ i, HoldsAddress s i r.source → Unprobed s i →
          let x := payloadIdentity r.payload
          let holder := word16At r.payload 8
          (∀ late, LostBy s i x holder late →
              exec .reply s =
                .next (count .strays
                  (withEntry i { entry s i with superseded := some ⟨holder, true⟩ } (popped rest s))))
            ∧ ((∀ late, ¬ LostBy s i x holder late) →
                exec .reply s = .next (count .strays (popped rest s))))

/-! ### Renewal -/

/-- R34 to R39, R100, R101, R102: a KEEP by the entry at its source address. A live leased entry of its
identity and incarnation is renewed: BOUND, lease and remaining the lease clamped as KeepAdopted spells it
out, with no cap, the generation advanced by 1 and STATE handed from LAPSING, RENEWALS counted, KEPT with
the lease and generation. A probe against it concludes DUPLICATE: the dispute gains DUPLICATE_IDENTITY in
the same change, and after KEPT the joiner is refused, the request kind being a free value (log entry 2).
Under another incarnation the KEEP is refused REJOIN, and a probe whose joiner has that incarnation
concludes SAME_STATION. A live entry of another identity gains ADDRESS_COLLISION and the KEEP is refused
NOT_YOURS. A STATIC entry of its identity answers KEPT with lease 0 and is not changed. A HELD entry of
its identity refuses EXPIRED, REJOIN or REVOKED by its cause; of another, or RESERVED, NOT_YOURS. No
entry, outside SETTLING, is refused UNKNOWN. The next KEEP of a holder that answered its CHECK too late, and
so lost the entry to the binding it now has, is refused NOT_YOURS instead while no probe runs, and its loss
is forgotten with its first KEEP, whatever that meets: the model's reading of R35 and R103 (log entry 27).
-/
def Obligations.KeepAnsweredByEntry : Prop :=
  ∀ (s : State) (r : Request) (rest : List Request), Front s r rest → r.kind = .keep →
    let x := payloadIdentity r.payload
    let p := s.phase.params
    let met : State := keepMet x (word16At r.payload 8) (popped rest s)
    let refused (reason : Reason) (t : State) : State :=
      send r.source (.refuse x .keep reason) (count .refusals t)
    (∀ (i : Index) (e : Entry), HoldsAddress s i r.source → e = entry met i → e.live →
        let lease := clampLease p (natAt r.payload 12 2) none
        let own := e.incarnation = some (word16At r.payload 8)
        let renewed (g : Word16) (d : Dispute) (causes : CauseSet) : State :=
          send r.source (.kept x lease g)
            (count .renewals
              (withCauses i ((if e.state = .lapsing then causeState else 0) ||| causes)
                (withEntry i
                  { e with
                    state := .bound, generation := g, lease := some lease,
                    remaining := some lease, dispute := d } met)))
        (e.leased → e.identity = some x → own → Unprobed s i →
            exec .keep s =
              .next (renewed (if e.state = .lapsing then e.generation + 1 else e.generation)
                e.dispute 0))
          ∧ (∀ c y, e.leased → e.identity = some x → own → ProbedBy s i c → context s c = some y →
              e.dispute.duplicate = false →
                ∃ k, exec .keep s =
                  .next (send 254 (.refuse y.identity k .duplicate)
                    (count .refusals
                      { count .duplicates (renewed (e.generation + 1)
                          { e.dispute with duplicate := true } causeDispute) with
                        join.contexts := s.join.contexts.set c none
                        freeUsed := s.freeUsed + 1 })))
          ∧ (e.leased → e.identity = some x → ¬ own →
              (Unprobed s i → ¬ LostBy s i x (word16At r.payload 8) true →
                  exec .keep s = .next (refused .rejoin met))
                ∧ (Unprobed s i → LostBy s i x (word16At r.payload 8) true →
                    exec .keep s = .next (refused .notYours met))
                ∧ ∀ c y, ProbedBy s i c → context s c = some y →
                    (y.incarnation = word16At r.payload 8 →
                        exec .keep s = .next (resolveTerms c (refused .rejoin met)))
                      ∧ (y.incarnation ≠ word16At r.payload 8 →
                          exec .keep s = .next (refused .rejoin met)))
          ∧ (e.identity ≠ some x →
              exec .keep s =
                .next (refused .notYours
                  (if e.dispute.collision then met else collided i met)))
          ∧ (e.origin = some .static → e.identity = some x →
              exec .keep s =
                .next (send r.source (.kept x 0 e.generation)
                  (count .renewals met))))
      ∧ (∀ (i : Index) (e : Entry), HoldsAddress s i r.source → e = entry met i →
          (∀ h, e.state = .held → e.heldCause = some h → e.identity = some x →
              exec .keep s =
                .next (refused (match h with
                  | .expired => .expired | .left => .rejoin | .revoked | .evicted => .revoked)
                  met))
            ∧ (e.state = .reserved ∨ (e.state = .held ∧ e.identity ≠ some x) →
                exec .keep s = .next (refused .notYours met)))
      ∧ (AddressUnheld s r.source → s.phase.phase ≠ .settling →
          exec .keep s = .next (refused .unknown met))

/-- R32, R48, R144, R145, R17 to R19: in SETTLING, a KEEP from an address that no entry holds is tested in
order. A source outside 1..239, adoption off, an identity that an entry holds, one not admitted, a class
outside the verdict's caps, or one not offered: each is refused REJOIN. With no entry FREE and none HELD
it is refused TABLE_FULL and that part cause is set. A KEEP that passes is adopted into the lowest FREE
entry, or with none FREE the HELD entry reclaimed: BOUND of origin ADOPTED with the KEEP's terms, as the
payload's bytes spell them, and the clamped lease, its generation advanced by 1 and CREATED and TERMS
handed, or out of HELD advanced by 2 and RELEASED handed besides; RENEWALS is counted and KEPT sent. The
clamp is made in three steps: a requested lease of 0 becomes the default lease; the result is raised to
min lease and lowered to max lease; and a lease cap, where there is one, lowers it further. As with every
KEEP, what its sender lost for want of a REPLY is forgotten (log entry 27). -/
def Obligations.KeepAdopted : Prop :=
  (∀ (s : State) (r : Request) (rest : List Request), Front s r rest → r.kind = .keep →
    s.phase.phase = .settling → AddressUnheld s r.source →
      let p := s.phase.params
      let k := readKeep r.payload
      let u := keepMet k.identity k.incarnation (popped rest s)
      let answers (t : State) : Prop := exec .keep s = .next t
      let refused (reason : Reason) (t : State) : State :=
        send r.source (.refuse k.identity .keep reason) (count .refusals t)
      let tested := 1 ≤ r.source ∧ r.source ≤ 239 ∧ p.adoption = true ∧ IdentityUnheld s k.identity
      (¬ ContentError .keep r.payload →
          k.identity = identityAt r.payload 0 ∧ k.incarnation = word16At r.payload 8
            ∧ k.cls.val = (byteAt r.payload 10).toNat ∧ k.window = (byteAt r.payload 11).toNat
            ∧ k.lease = natAt r.payload 12 2
            ∧ k.groups = (r.payload.drop 15).map BitVec.toNat)
        ∧ (¬ tested → answers (refused .rejoin u))
        ∧ (tested → verdict s k.identity = none → answers (refused .rejoin u))
        ∧ ∀ caps, tested → verdict s k.identity = some caps →
            let allowed := caps.classes.getLsbD k.cls.val = true ∧ p.offered.getLsbD k.cls.val = true
            (¬ allowed → answers (refused .rejoin u))
              ∧ (allowed → (∀ i, (entry s i).state ≠ .free ∧ (entry s i).state ≠ .held) →
                  answers (refused .tableFull (setPart partTableFull u)))
              ∧ ∀ i advance causes, allowed → EntryTaken s none i advance causes →
                  let lease := clampLease p k.lease caps.lease
                  let g := (entry s i).generation + advance
                  answers (send r.source (.kept k.identity lease g)
                    (count .renewals
                      (withCauses i causes
                        (withEntry i
                          { Entry.freeAt g with
                            state := .bound, origin := some .adopted, identity := some k.identity,
                            incarnation := some k.incarnation, address := some r.source,
                            terms := some ⟨k.cls, k.window, k.groups⟩, lease := some lease,
                            remaining := some lease } u)))))
  ∧ ∀ (p : Params) (requested : Nat) (cap : Option Nat), p.minLease ≤ p.maxLease →
      ∃ asked bounded : Nat,
        (requested = 0 → asked = p.defaultLease) ∧ (requested ≠ 0 → asked = requested)
          ∧ (asked < p.minLease → bounded = p.minLease)
          ∧ (p.maxLease < asked → bounded = p.maxLease)
          ∧ (p.minLease ≤ asked → asked ≤ p.maxLease → bounded = asked)
          ∧ (cap = none → clampLease p requested cap = bounded)
          ∧ ∀ n, cap = some n →
              (n < bounded → clampLease p requested cap = n)
                ∧ (bounded ≤ n → clampLease p requested cap = bounded)

/-- R12, R13, R41, R42, R101, R102: a LEAVE of the identity and incarnation of the live leased entry at
its source makes the entry HELD with cause LEFT, hold ticks remaining and no dispute, its generation
advanced by 1 and STATE handed, or FREE with RELEASED when hold ticks is 0; it is answered CLOSED; and a
probe against the entry then concludes GONE. Repeated against that HELD entry it is answered CLOSED
again and changes nothing. Any other LEAVE is refused NOT_YOURS. -/
def Obligations.LeaveEndsBinding : Prop :=
  ∀ (s : State) (r : Request) (rest : List Request), Front s r rest → r.kind = .leave →
    let x := payloadIdentity r.payload
    let turnedAway : Prop :=
      exec .leave s =
        .next (send r.source (.refuse x .leave .notYours) (count .refusals (popped rest s)))
    (∀ (i : Index) (e : Entry), HoldsAddress s i r.source → e = entry s i →
        let theirs :=
          e.leased ∧ e.identity = some x ∧ e.incarnation = some (word16At r.payload 8)
        (∀ after, theirs → e.live → GoneThen s i after →
            exec .leave s =
              .next (after (send r.source (.closed x)
                (if s.phase.params.hold = 0 then released i (popped rest s)
                  else heldBy .left i (popped rest s)))))
          ∧ (theirs → e.state = .held → e.heldCause = some .left →
              exec .leave s = .next (send r.source (.closed x) (popped rest s)))
          ∧ (¬ theirs ∨ ¬ (e.live ∨ (e.state = .held ∧ e.heldCause = some .left)) → turnedAway))
      ∧ (AddressUnheld s r.source → turnedAway)

/-! ### The lease clock -/

/-- R25, R26, R139: a tick of the running clock falls at its time and starts the next period. A timed
entry receives a count-down behind those it already owes, and takes them in order, each lowering remaining
by 1 and changing nothing else, while they leave it at least 1; the one that would bring it to 0, and those
behind it, stay owed to its expiry event. So an entry that owes none is lowered by 1, and at 1 remaining
owes one. An entry that is not timed is left alone and owes none.
In SETTLING a settle timer above 1 is lowered by 1, and at 1 its expiry is owed. A SETTLE_EXPIRY that is
owed makes the phase ACTIVE, stops the timer and sets PHASE. That time moves on to the tick's moment, a
late tick being taken at the clock's time, is the model's (log entry 5), and so is that an expiry is owed
between its tick and its own event (log entry 7). -/
def Obligations.LeaseTickCountsDown : Prop :=
  (∀ (s : State) (d : Nat), s.lease.nextTick = some d →
    ∃ t, exec .leaseTick s = .next t ∧ t.now = max s.now d
      ∧ t.lease.nextTick = some (d + s.phase.params.tickPeriod * 50000)
      ∧ (∀ (i : Index) (n k : Nat), (entry s i).timed → (entry s i).remaining = some n →
          s.lease.owed[i] = k →
            (k + 2 ≤ n →
                entry t i = { entry s i with remaining := some (n - (k + 1)) }
                  ∧ t.lease.owed[i] = 0)
              ∧ (1 ≤ n → n < k + 2 →
                  entry t i = { entry s i with remaining := some 1 }
                    ∧ t.lease.owed[i] = k + 2 - n))
      ∧ (∀ i, (entry s i).timed = false → entry t i = entry s i ∧ t.lease.owed[i] = 0)
      ∧ (∀ n, s.phase.phase = .settling → s.phase.settle = some n → 2 ≤ n →
          t.phase = { s.phase with settle := some (n - 1) })
      ∧ (s.phase.phase = .settling → s.phase.settle = some 1 →
          t.phase = { s.phase with settleOwed := true })
      ∧ (s.phase.phase ≠ .settling → t.phase = s.phase)
      ∧ t = { s with table := t.table, lease := t.lease, phase := t.phase, now := t.now })
  ∧ ∀ s : State, s.phase.phase = .settling → s.phase.settleOwed = true →
      exec .settleExpiry s =
        .next { s with
          phase.phase := .active, phase.settle := none, phase.settleOwed := false
          change.partCauses := s.change.partCauses ||| partPhase }

/-- R12, R13, R27 to R30, R101, R102: an expiry event that takes the count-down its entry owes, with 1
remaining. BOUND leased with grace: LAPSING with grace ticks, LAPSES counted, STATE; without grace LAPSES
is counted and the hold follows at once. LAPSING: HELD with cause EXPIRED, hold ticks and no dispute,
STATE, or with hold ticks 0 FREE, RELEASED; and a probe against the entry concludes GONE. HELD, and LEGACY
after its silence: FREE, RELEASED. The generation advances by 1 in each. That the count-down is owed from
its tick to this event is the model's (log entry 7). -/
def Obligations.ExpiriesMoveEntries : Prop :=
  ∀ (s : State) (i : Index) (e : Entry) (n : Nat), e = entry s i →
    s.lease.owed[i] = n + 1 → e.remaining = some 1 →
      let taken : State := { s with lease.owed := s.lease.owed.set i n }
      let expired (t : State) : State :=
        if s.phase.params.hold = 0 then released i t else heldBy .expired i t
      (e.leased → e.state = .bound → s.phase.params.grace ≠ 0 →
          exec (.boundExpiry i) s =
            .next (withCauses i causeState
              (withEntry i
                { e with
                  state := .lapsing, generation := e.generation + 1,
                  remaining := some s.phase.params.grace } (count .lapses taken))))
        ∧ (∀ after, e.leased → e.state = .bound → s.phase.params.grace = 0 → GoneThen s i after →
            exec (.boundExpiry i) s = .next (after (expired (count .lapses taken))))
        ∧ (∀ after, e.leased → e.state = .lapsing → GoneThen s i after →
            exec (.lapsingExpiry i) s = .next (after (expired taken)))
        ∧ (e.leased → e.state = .held →
            exec (.heldExpiry i) s = .next (released i taken))
        ∧ (e.origin = some .legacy → e.state = .bound →
            exec (.legacySilenceExpiry i) s = .next (released i taken))

/-! ### Timers -/

/-- R62, R63, R96, R101, R132, R159: the expiry of a running timer, at its time. Page and agree timers
close their context with REFUSE(TIMEOUT), counted, and the agree timer's reserved entry is freed. A probe
timer with tries left hands over another CHECK and the context awaits its completion; with none left the
probe concludes GONE, and resolution goes on at step 2; where it supersedes the binding, the reserved entry
records the holder's incarnation, its REPLY not yet come, which is the model's (log entry 27). The silence
timer makes alive 0, stops, sets SEGMENT_SILENT and the latched-low flag. That time moves on to the timer's
end is the model's (log entry 5); the request kind of the REFUSE is a free value (log entry 2). -/
def Obligations.TimersExpire : Prop :=
  ∀ (s : State) (c : CtxNum) (x : Exchange),
    let at_ (d : Nat) : State := { s with now := max s.now d }
    let closed (t : State) : State :=
      { t with join.contexts := s.join.contexts.set c none, freeUsed := s.freeUsed + 1 }
    (∀ d, context s c = some x → x.stage = .collecting d →
        ∃ k, exec (.pageTimerExpiry c) s =
          .next (send 254 (.refuse x.identity k .timeout)
            (count .refusals (closed (at_ d)))))
      ∧ (∀ o, context s c = some x → x.stage = .offered o →
          (entry s o.entry).state = .reserved →
            ∃ k, exec (.agreeTimerExpiry c) s =
              .next (send 254 (.refuse x.identity k .timeout)
                (count .refusals (closed
                  (withCauses o.entry causeReleased
                    (withEntry o.entry
                      (Entry.freeAt ((entry s o.entry).generation + 1)) (at_ o.deadline)))))))
      ∧ (∀ n d i a, context s c = some x → x.stage = .checking n (.running d) →
          x.target = some i → (entry s i).address = some a → n < s.phase.params.probeTries →
            exec (.probeTimerExpiry c) s =
              .next (handOver a (.check x.identity) [.context c s.join.nextToken]
                { at_ d with
                  join.contexts := s.join.contexts.set c
                    (some { x with
                      stage := .checking (n + 1) (.awaiting s.join.nextToken) })
                  join.nextToken := s.join.nextToken + 1 }))
      ∧ (∀ n d i a, context s c = some x → x.stage = .checking n (.running d) →
          x.target = some i → (entry s i).address = some a → s.phase.params.probeTries ≤ n →
            let t := resolveTerms c (at_ d)
            (∀ holder, (entry s i).live → (entry t i).state = .reserved →
                (entry s i).incarnation = some holder →
                  exec (.probeTimerExpiry c) s =
                    .next (withEntry i
                      { entry t i with superseded := some ⟨holder, false⟩ } t))
              ∧ (¬ ((entry s i).live ∧ (entry t i).state = .reserved) →
                  exec (.probeTimerExpiry c) s = .next t))
      ∧ (∀ d, s.port.silence = some d →
          exec .silenceTimerExpiry s =
            .next { at_ d with
              port.alive := false, port.silence := none, change.latchedLow := true
              change.partCauses := s.change.partCauses ||| partSilent })

/-! ### The answer queue and the transmitter -/

/-- R125, R126, R128: a message handed to the queue. In OFFLINE it is not added, its waiters being told
dropped. Added to an empty queue it becomes the head, and its attempt begins at once where the gap is
over; elsewhere it is deferred. Identical to a waiting one, it is not added and its waiters join the
waiting one's. At a full queue it is dropped, QUEUE_DROP is set and its waiters are told; the drop is
counted whatever the message, and a context that awaits the message as its CHECK starts its probe timer
(R95, R131). Otherwise it joins the back. That the drop of a notice is counted too is the model's reading
of R126 and R170 (log entry 26). -/
def Obligations.AnswerQueueTakesMessage : Prop :=
  ∀ (s : State) (d : Nat) (a : Answer) (ws : List Waiter),
    let m : QueuedMessage := ⟨d, a, s.now, 0, ws⟩
    let same (q : QueuedMessage) : Prop := q.destination = d ∧ q.answer = a
    (s.phase.phase = .offline → handOver d a ws s = reportAll .dropped ws s)
      ∧ (s.phase.phase ≠ .offline → s.port.queue = [] →
          (GapOver s →
              handOver d a ws s =
                { s with
                  port.queue := [m], port.tx := .sending s.now, port.overlapped := false })
            ∧ (¬ GapOver s →
                handOver d a ws s = { s with port.queue := [m], port.tx := .deferring none }))
      ∧ (∀ h before q after, s.phase.phase ≠ .offline →
          s.port.queue = h :: before ++ q :: after → (∀ b ∈ before, ¬ same b) → same q →
            handOver d a ws s =
              { s with
                port.queue := h :: before ++ { q with waiters := q.waiters ++ ws } :: after })
      ∧ (∀ h rest, s.phase.phase ≠ .offline → s.port.queue = h :: rest →
          (∀ b ∈ rest, ¬ same b) →
            (rest.length = 15 →
                handOver d a ws s =
                  reportAll .dropped ws (setPart partQueueDrop (count .answerDrops s)))
              ∧ (∀ c k x n, rest.length = 15 → ws = [.context c k] → context s c = some x →
                  x.stage = .checking n (.awaiting k) →
                    handOver d a ws s =
                      { setPart partQueueDrop (count .answerDrops s) with
                        join.contexts := s.join.contexts.set c
                          (some { x with
                            stage := .checking n
                              (.running (s.now + s.phase.params.probeTimeout * 10000)) }) })
              ∧ (rest.length < 15 →
                  handOver d a ws s = { s with port.queue := h :: rest ++ [m] }))

/-- R128, R130: in DEFERRING with the line quiet, the attempt begins when the quiet time reaches 48 bit
times. A rise of carrier below 36 bit times abandons the gap, and one in 36..47 is ignored, so that the
attempt begins when the quiet time would have reached 48. At the end of a backoff the attempt begins at
once where the quiet time is 48 bit times or more without carrier, and the transmitter defers otherwise. A
rise of carrier while an attempt of the part is under way begins a carrier period that overlaps the
attempt (R120); in the other states of the transmitter it raises carrier and nothing else, and while
carrier is present it is none. The model's own are these: that time moves on to these moments, and an
attempt brought late begins at the clock's time (log entries 5 and 22); that ATTEMPT_BEGIN has no effect
while carrier defers the attempt (log entry 6); that a rise at 48 bit times or more, with the attempt due,
is ignored as one in 36..47 is (log entry 13); and the bit times counted at an earlier bus rate (log entry
20). -/
def Obligations.AttemptWaitsForGap : Prop :=
  ∀ (s : State),
    let bit := 1000 / s.phase.params.busRate
    let gap := s.port.quietFrom + (48 - s.port.quietCarried) * bit
    let quiet := s.port.quietCarried + (s.now - s.port.quietFrom) / bit
    let riseIgnored : Prop :=
      ∃ t, exec .carrierRise s = .next t
        ∧ t = { s with
            port.carrier := true, port.overlapped := false, port.tx := .deferring (some gap) }
        ∧ exec .attemptBegin t =
            .next { t with
              now := max s.now gap, port.tx := .sending (max s.now gap), port.overlapped := true }
    (s.port.tx = .deferring none → s.port.carrier = false →
        exec .attemptBegin s =
          .next { s with
            now := max s.now gap, port.tx := .sending (max s.now gap), port.overlapped := false })
      ∧ (s.port.tx = .deferring none → s.port.carrier = true → exec .attemptBegin s = .next s)
      ∧ (s.port.carrier = true → exec .carrierRise s = .next s)
      ∧ (s.port.carrier = false → attemptUnderWay s →
          exec .carrierRise s =
            .next { s with port.carrier := true, port.overlapped := true })
      ∧ (s.port.carrier = false → ¬ attemptUnderWay s → s.port.tx ≠ .deferring none →
          exec .carrierRise s =
            .next { s with port.carrier := true, port.overlapped := false })
      ∧ (s.port.tx = .deferring none → s.port.carrier = false →
          (quiet < 36 →
              exec .carrierRise s =
                .next { s with port.carrier := true, port.overlapped := false })
            ∧ (36 ≤ quiet → quiet ≤ 47 → riseIgnored)
            ∧ (48 ≤ quiet → riseIgnored))
      ∧ (∀ d, s.port.tx = .backingOff d →
          let u : State := { s with now := max s.now d }
          (GapOver u →
              exec .backoffEnd s =
                .next { u with port.tx := .sending u.now, port.overlapped := false })
            ∧ (¬ GapOver u → exec .backoffEnd s = .next { u with port.tx := .deferring none }))

/-- R95, R127, R128, R129, R131, R134, R164: an attempt that ends SENT, a frame's bits after it began. The
head leaves the queue; the next message young enough becomes the head and the transmitter defers, and with
none the transmitter is IDLE. A next message over its lifetime is dropped and counted, QUEUE_DROP is not
set, and its waiters are told. A command that waits for the head as its notice completes OK with outcome
SENT, one that waits for the dropped message with outcome DROPPED, and a context that awaits either
message as its CHECK starts its probe timer. An attempt that survived a teardown completes that command:
DISABLE with the phase, PORT-RESTART without data. That time moves on to the last bit is the model's (log
entry 5), and that the drop of a notice is counted too is its reading of R127 and R170 (log entry 26). -/
def Obligations.AttemptSentRemovesHead : Prop :=
  ∀ (s : State) (b : Nat) (m : QueuedMessage) (rest : List QueuedMessage),
    s.port.tx = .sending b → s.port.queue = m :: rest →
      let bits := 8 * (6 + m.answer.payload.length)
      let time := max s.now (b + bits * (1000 / s.phase.params.busRate))
      let ends (t : State) : Prop := exec .attemptSent s = .next t
      (s.port.surviving = false →
        (∀ q tx, TurnsTo s time rest q tx →
            (m.waiters = [] → ends (attemptOver time q tx s))
              ∧ (∀ c i g, m.waiters = [.engine] → s.host.engine = .executing c →
                  c.work = .notice i g →
                    ends { attemptOver time q tx s with
                      host.engine := .done ⟨c.tag, .ok,
                        [oneByte i.val] ++ word16Bytes g ++ [1]⟩ })
              ∧ (∀ c k x n, m.waiters = [.context c k] → context s c = some x →
                  x.stage = .checking n (.awaiting k) →
                    ends { attemptOver time q tx s with
                      join.contexts := s.join.contexts.set c
                        (some { x with
                          stage := .checking n
                            (.running (time + s.phase.params.probeTimeout * 10000)) }) }))
          ∧ (∀ n r q tx, rest = n :: r → s.phase.params.answerLifetime * 10000 < time - n.produced →
              TurnsTo s time r q tx → m.waiters = [] →
                (n.waiters = [] → ends (count .answerDrops (attemptOver time q tx s)))
                  ∧ (∀ c i g, n.waiters = [.engine] → s.host.engine = .executing c →
                      c.work = .notice i g →
                        ends { count .answerDrops (attemptOver time q tx s) with
                          host.engine := .done ⟨c.tag, .ok,
                            [oneByte i.val] ++ word16Bytes g ++ [2]⟩ })
                  ∧ (∀ c k x p, n.waiters = [.context c k] → context s c = some x →
                      x.stage = .checking p (.awaiting k) →
                        ends { count .answerDrops (attemptOver time q tx s) with
                          join.contexts := s.join.contexts.set c
                            (some { x with
                              stage := .checking p
                                (.running (time + s.phase.params.probeTimeout * 10000)) }) })))
        ∧ (∀ q tx c, s.port.surviving = true → TurnsTo s time rest q tx → m.waiters = [] →
            s.host.engine = .executing c → c.work = .attemptEnd →
              (c.code = 0x04 → s.phase.phase = .offline →
                  ends { attemptOver time q tx s with
                    port.surviving := false, host.engine := .done ⟨c.tag, .ok, [0]⟩ })
                ∧ (c.code = 0x17 →
                    ends { attemptOver time q tx s with
                      port.surviving := false, host.engine := .done ⟨c.tag, .ok, []⟩ }))

/-- R129, R130, R134, R164: a collision signal during an own attempt raises the head's collisions by 1 and
starts the jam of 16 bit times; outside an attempt it is not acted on. At the end of the jam, below 12
collisions the transmitter backs off for a number of slots of 256 bit times below 2 to the smaller of the
collisions and 7, or defers at once when that number is 0; the twelfth drops the head, which is counted,
and the next message becomes the head; a command that waits for the head as its notice completes OK with
outcome DROPPED, and a context that awaits it as its CHECK starts its probe timer (R95, R131). The head of
an attempt that survived a teardown is removed without backoff and not counted, and that command
completes: DISABLE with the phase, PORT-RESTART without data. The number is a free value (log entry 1);
that time moves on to the end of the jam is the model's (log entry 5), and that the drop of a notice is
counted too is its reading of R130 and R170 (log entry 26). -/
def Obligations.CollisionJamsAndBacksOff : Prop :=
  ∀ (s : State) (m : QueuedMessage) (rest : List QueuedMessage), s.port.queue = m :: rest →
    let bit := 1000 / s.phase.params.busRate
    (∀ b, s.port.tx = .sending b →
        exec .collisionSignal s =
          .next { s with
            port.queue := { m with collisions := m.collisions + 1 } :: rest
            port.tx := .jamming (s.now + 16 * bit) })
      ∧ ((∀ b, s.port.tx ≠ .sending b) → exec .collisionSignal s = .next s)
      ∧ (∀ d, s.port.tx = .jamming d →
          let time := max s.now d
          (s.port.surviving = false → m.collisions < 12 →
              ∃ r, r < 2 ^ min m.collisions 7
                ∧ exec .jamEnd s =
                    .next { attemptOver time s.port.queue
                        (if r = 0 then .deferring none else .backingOff (time + r * 256 * bit)) s with
                      freeUsed := s.freeUsed + 1 })
            ∧ (∀ q tx, TurnsTo s time rest q tx → m.waiters = [.engine] →
                s.port.surviving = false → 12 ≤ m.collisions →
                  ∀ c i g, s.host.engine = .executing c → c.work = .notice i g →
                    exec .jamEnd s =
                      .next { count .answerDrops (attemptOver time q tx s) with
                        host.engine := .done ⟨c.tag, .ok,
                          [oneByte i.val] ++ word16Bytes g ++ [2]⟩ })
            ∧ (∀ q tx, TurnsTo s time rest q tx →
                s.port.surviving = false → 12 ≤ m.collisions →
                  ∀ c k x n, m.waiters = [.context c k] → context s c = some x →
                    x.stage = .checking n (.awaiting k) →
                      exec .jamEnd s =
                        .next { count .answerDrops (attemptOver time q tx s) with
                          join.contexts := s.join.contexts.set c
                            (some { x with
                              stage := .checking n
                                (.running (time + s.phase.params.probeTimeout * 10000)) }) })
            ∧ (∀ q tx, TurnsTo s time rest q tx → m.waiters = [] →
                (s.port.surviving = false → 12 ≤ m.collisions →
                    exec .jamEnd s = .next (count .answerDrops (attemptOver time q tx s)))
                  ∧ (∀ c, s.port.surviving = true → s.host.engine = .executing c →
                      c.work = .attemptEnd →
                        (c.code = 0x04 → s.phase.phase = .offline →
                            exec .jamEnd s =
                              .next { attemptOver time q tx s with
                                port.surviving := false
                                host.engine := .done ⟨c.tag, .ok, [0]⟩ })
                          ∧ (c.code = 0x17 →
                              exec .jamEnd s =
                                .next { attemptOver time q tx s with
                                  port.surviving := false
                                  host.engine := .done ⟨c.tag, .ok, []⟩ }))))
end

