-- ==== Sys2Proof/Laws/State.lean ====
section
/-! SUPPORT. One lemma for each field of the state under each straight update, all true by rfl. -/

namespace Sys2Proof.Machine

/-! ### setPart -/

@[simp] theorem setPart_table (c : CauseSet) (s : State) :
    (setPart c s).table = s.table := rfl

@[simp] theorem setPart_lease (c : CauseSet) (s : State) :
    (setPart c s).lease = s.lease := rfl

@[simp] theorem setPart_admission (c : CauseSet) (s : State) :
    (setPart c s).admission = s.admission := rfl

@[simp] theorem setPart_join (c : CauseSet) (s : State) :
    (setPart c s).join = s.join := rfl

@[simp] theorem setPart_lookup (c : CauseSet) (s : State) :
    (setPart c s).lookup = s.lookup := rfl

@[simp] theorem setPart_phase (c : CauseSet) (s : State) :
    (setPart c s).phase = s.phase := rfl

@[simp] theorem setPart_change (c : CauseSet) (s : State) :
    (setPart c s).change =
      { s.change with partCauses := s.change.partCauses ||| c } := rfl

@[simp] theorem setPart_port (c : CauseSet) (s : State) :
    (setPart c s).port = s.port := rfl

@[simp] theorem setPart_host (c : CauseSet) (s : State) :
    (setPart c s).host = s.host := rfl

@[simp] theorem setPart_now (c : CauseSet) (s : State) :
    (setPart c s).now = s.now := rfl

@[simp] theorem setPart_freeUsed (c : CauseSet) (s : State) :
    (setPart c s).freeUsed = s.freeUsed := rfl

@[simp] theorem setPart_pending (c : CauseSet) (s : State) :
    (setPart c s).pending = s.pending := rfl

/-! ### advanceTo -/

@[simp] theorem advanceTo_table (n : Nat) (s : State) :
    (advanceTo n s).table = s.table := rfl

@[simp] theorem advanceTo_lease (n : Nat) (s : State) :
    (advanceTo n s).lease = s.lease := rfl

@[simp] theorem advanceTo_admission (n : Nat) (s : State) :
    (advanceTo n s).admission = s.admission := rfl

@[simp] theorem advanceTo_join (n : Nat) (s : State) :
    (advanceTo n s).join = s.join := rfl

@[simp] theorem advanceTo_lookup (n : Nat) (s : State) :
    (advanceTo n s).lookup = s.lookup := rfl

@[simp] theorem advanceTo_phase (n : Nat) (s : State) :
    (advanceTo n s).phase = s.phase := rfl

@[simp] theorem advanceTo_change (n : Nat) (s : State) :
    (advanceTo n s).change = s.change := rfl

@[simp] theorem advanceTo_port (n : Nat) (s : State) :
    (advanceTo n s).port = s.port := rfl

@[simp] theorem advanceTo_host (n : Nat) (s : State) :
    (advanceTo n s).host = s.host := rfl

@[simp] theorem advanceTo_now (n : Nat) (s : State) :
    (advanceTo n s).now =
      max s.now n := rfl

@[simp] theorem advanceTo_freeUsed (n : Nat) (s : State) :
    (advanceTo n s).freeUsed = s.freeUsed := rfl

@[simp] theorem advanceTo_pending (n : Nat) (s : State) :
    (advanceTo n s).pending = s.pending := rfl

/-! ### changeEntry -/

@[simp] theorem changeEntry_table (i : Index) (e : Entry) (c : CauseSet) (s : State) :
    (changeEntry i e c s).table =
      { s.table with entries := s.table.entries.set i { e with generation := nextGeneration (entry s i) e } } := rfl

@[simp] theorem changeEntry_lease (i : Index) (e : Entry) (c : CauseSet) (s : State) :
    (changeEntry i e c s).lease = s.lease := rfl

@[simp] theorem changeEntry_admission (i : Index) (e : Entry) (c : CauseSet) (s : State) :
    (changeEntry i e c s).admission = s.admission := rfl

@[simp] theorem changeEntry_join (i : Index) (e : Entry) (c : CauseSet) (s : State) :
    (changeEntry i e c s).join = s.join := rfl

@[simp] theorem changeEntry_lookup (i : Index) (e : Entry) (c : CauseSet) (s : State) :
    (changeEntry i e c s).lookup = s.lookup := rfl

@[simp] theorem changeEntry_phase (i : Index) (e : Entry) (c : CauseSet) (s : State) :
    (changeEntry i e c s).phase = s.phase := rfl

@[simp] theorem changeEntry_change (i : Index) (e : Entry) (c : CauseSet) (s : State) :
    (changeEntry i e c s).change =
      { s.change with entryCauses := s.change.entryCauses.set i (s.change.entryCauses[i] ||| c) } := rfl

@[simp] theorem changeEntry_port (i : Index) (e : Entry) (c : CauseSet) (s : State) :
    (changeEntry i e c s).port = s.port := rfl

@[simp] theorem changeEntry_host (i : Index) (e : Entry) (c : CauseSet) (s : State) :
    (changeEntry i e c s).host = s.host := rfl

@[simp] theorem changeEntry_now (i : Index) (e : Entry) (c : CauseSet) (s : State) :
    (changeEntry i e c s).now = s.now := rfl

@[simp] theorem changeEntry_freeUsed (i : Index) (e : Entry) (c : CauseSet) (s : State) :
    (changeEntry i e c s).freeUsed = s.freeUsed := rfl

@[simp] theorem changeEntry_pending (i : Index) (e : Entry) (c : CauseSet) (s : State) :
    (changeEntry i e c s).pending = s.pending := rfl

/-! ### freeEntry -/

@[simp] theorem freeEntry_lease (i : Index) (s : State) :
    (freeEntry i s).lease = s.lease := rfl

@[simp] theorem freeEntry_admission (i : Index) (s : State) :
    (freeEntry i s).admission = s.admission := rfl

@[simp] theorem freeEntry_join (i : Index) (s : State) :
    (freeEntry i s).join = s.join := rfl

@[simp] theorem freeEntry_lookup (i : Index) (s : State) :
    (freeEntry i s).lookup = s.lookup := rfl

@[simp] theorem freeEntry_phase (i : Index) (s : State) :
    (freeEntry i s).phase = s.phase := rfl

@[simp] theorem freeEntry_port (i : Index) (s : State) :
    (freeEntry i s).port = s.port := rfl

@[simp] theorem freeEntry_host (i : Index) (s : State) :
    (freeEntry i s).host = s.host := rfl

@[simp] theorem freeEntry_now (i : Index) (s : State) :
    (freeEntry i s).now = s.now := rfl

@[simp] theorem freeEntry_freeUsed (i : Index) (s : State) :
    (freeEntry i s).freeUsed = s.freeUsed := rfl

@[simp] theorem freeEntry_pending (i : Index) (s : State) :
    (freeEntry i s).pending = s.pending := rfl

/-! ### renewEntry -/

@[simp] theorem renewEntry_lease (i : Index) (n : Nat) (s : State) :
    (renewEntry i n s).lease = s.lease := rfl

@[simp] theorem renewEntry_admission (i : Index) (n : Nat) (s : State) :
    (renewEntry i n s).admission = s.admission := rfl

@[simp] theorem renewEntry_join (i : Index) (n : Nat) (s : State) :
    (renewEntry i n s).join = s.join := rfl

@[simp] theorem renewEntry_lookup (i : Index) (n : Nat) (s : State) :
    (renewEntry i n s).lookup = s.lookup := rfl

@[simp] theorem renewEntry_phase (i : Index) (n : Nat) (s : State) :
    (renewEntry i n s).phase = s.phase := rfl

@[simp] theorem renewEntry_port (i : Index) (n : Nat) (s : State) :
    (renewEntry i n s).port = s.port := rfl

@[simp] theorem renewEntry_host (i : Index) (n : Nat) (s : State) :
    (renewEntry i n s).host = s.host := rfl

@[simp] theorem renewEntry_now (i : Index) (n : Nat) (s : State) :
    (renewEntry i n s).now = s.now := rfl

@[simp] theorem renewEntry_freeUsed (i : Index) (n : Nat) (s : State) :
    (renewEntry i n s).freeUsed = s.freeUsed := rfl

@[simp] theorem renewEntry_pending (i : Index) (n : Nat) (s : State) :
    (renewEntry i n s).pending = s.pending := rfl

/-! ### setContext -/

@[simp] theorem setContext_table (c : CtxNum) (x : Option Exchange) (s : State) :
    (setContext c x s).table = s.table := rfl

@[simp] theorem setContext_lease (c : CtxNum) (x : Option Exchange) (s : State) :
    (setContext c x s).lease = s.lease := rfl

@[simp] theorem setContext_admission (c : CtxNum) (x : Option Exchange) (s : State) :
    (setContext c x s).admission = s.admission := rfl

@[simp] theorem setContext_join (c : CtxNum) (x : Option Exchange) (s : State) :
    (setContext c x s).join =
      { s.join with contexts := s.join.contexts.set c x } := rfl

@[simp] theorem setContext_lookup (c : CtxNum) (x : Option Exchange) (s : State) :
    (setContext c x s).lookup = s.lookup := rfl

@[simp] theorem setContext_phase (c : CtxNum) (x : Option Exchange) (s : State) :
    (setContext c x s).phase = s.phase := rfl

@[simp] theorem setContext_change (c : CtxNum) (x : Option Exchange) (s : State) :
    (setContext c x s).change = s.change := rfl

@[simp] theorem setContext_port (c : CtxNum) (x : Option Exchange) (s : State) :
    (setContext c x s).port = s.port := rfl

@[simp] theorem setContext_host (c : CtxNum) (x : Option Exchange) (s : State) :
    (setContext c x s).host = s.host := rfl

@[simp] theorem setContext_now (c : CtxNum) (x : Option Exchange) (s : State) :
    (setContext c x s).now = s.now := rfl

@[simp] theorem setContext_freeUsed (c : CtxNum) (x : Option Exchange) (s : State) :
    (setContext c x s).freeUsed = s.freeUsed := rfl

@[simp] theorem setContext_pending (c : CtxNum) (x : Option Exchange) (s : State) :
    (setContext c x s).pending = s.pending := rfl

/-! ### startBus -/

@[simp] theorem startBus_table (r : FindRequest) (l : List FindRequest) (s : State) :
    (startBus r l s).table = s.table := rfl

@[simp] theorem startBus_lease (r : FindRequest) (l : List FindRequest) (s : State) :
    (startBus r l s).lease = s.lease := rfl

@[simp] theorem startBus_admission (r : FindRequest) (l : List FindRequest) (s : State) :
    (startBus r l s).admission = s.admission := rfl

@[simp] theorem startBus_join (r : FindRequest) (l : List FindRequest) (s : State) :
    (startBus r l s).join = s.join := rfl

@[simp] theorem startBus_lookup (r : FindRequest) (l : List FindRequest) (s : State) :
    (startBus r l s).lookup =
      { s.lookup with walk := some (.bus r r.cursor []), busWaiting := l, lastStarted := .bus } := rfl

@[simp] theorem startBus_phase (r : FindRequest) (l : List FindRequest) (s : State) :
    (startBus r l s).phase = s.phase := rfl

@[simp] theorem startBus_change (r : FindRequest) (l : List FindRequest) (s : State) :
    (startBus r l s).change = s.change := rfl

@[simp] theorem startBus_port (r : FindRequest) (l : List FindRequest) (s : State) :
    (startBus r l s).port = s.port := rfl

@[simp] theorem startBus_host (r : FindRequest) (l : List FindRequest) (s : State) :
    (startBus r l s).host = s.host := rfl

@[simp] theorem startBus_now (r : FindRequest) (l : List FindRequest) (s : State) :
    (startBus r l s).now = s.now := rfl

@[simp] theorem startBus_freeUsed (r : FindRequest) (l : List FindRequest) (s : State) :
    (startBus r l s).freeUsed = s.freeUsed := rfl

@[simp] theorem startBus_pending (r : FindRequest) (l : List FindRequest) (s : State) :
    (startBus r l s).pending = s.pending := rfl

/-! ### startHost -/

@[simp] theorem startHost_table (r : LookupRequest) (s : State) :
    (startHost r s).table = s.table := rfl

@[simp] theorem startHost_lease (r : LookupRequest) (s : State) :
    (startHost r s).lease = s.lease := rfl

@[simp] theorem startHost_admission (r : LookupRequest) (s : State) :
    (startHost r s).admission = s.admission := rfl

@[simp] theorem startHost_join (r : LookupRequest) (s : State) :
    (startHost r s).join = s.join := rfl

@[simp] theorem startHost_lookup (r : LookupRequest) (s : State) :
    (startHost r s).lookup =
      { s.lookup with walk := some (.host r r.cursor []), hostSlot := none, lastStarted := .host } := rfl

@[simp] theorem startHost_phase (r : LookupRequest) (s : State) :
    (startHost r s).phase = s.phase := rfl

@[simp] theorem startHost_change (r : LookupRequest) (s : State) :
    (startHost r s).change = s.change := rfl

@[simp] theorem startHost_port (r : LookupRequest) (s : State) :
    (startHost r s).port = s.port := rfl

@[simp] theorem startHost_host (r : LookupRequest) (s : State) :
    (startHost r s).host = s.host := rfl

@[simp] theorem startHost_now (r : LookupRequest) (s : State) :
    (startHost r s).now = s.now := rfl

@[simp] theorem startHost_freeUsed (r : LookupRequest) (s : State) :
    (startHost r s).freeUsed = s.freeUsed := rfl

@[simp] theorem startHost_pending (r : LookupRequest) (s : State) :
    (startHost r s).pending = s.pending := rfl

/-! ### accept -/

@[simp] theorem accept_table (f : CommandFrame) (s : State) :
    (accept f s).table = s.table := rfl

@[simp] theorem accept_lease (f : CommandFrame) (s : State) :
    (accept f s).lease = s.lease := rfl

@[simp] theorem accept_admission (f : CommandFrame) (s : State) :
    (accept f s).admission = s.admission := rfl

@[simp] theorem accept_join (f : CommandFrame) (s : State) :
    (accept f s).join = s.join := rfl

@[simp] theorem accept_lookup (f : CommandFrame) (s : State) :
    (accept f s).lookup = s.lookup := rfl

@[simp] theorem accept_phase (f : CommandFrame) (s : State) :
    (accept f s).phase = s.phase := rfl

@[simp] theorem accept_change (f : CommandFrame) (s : State) :
    (accept f s).change = s.change := rfl

@[simp] theorem accept_port (f : CommandFrame) (s : State) :
    (accept f s).port = s.port := rfl

@[simp] theorem accept_host (f : CommandFrame) (s : State) :
    (accept f s).host =
      { s.host with engine := .executing ⟨f.tag, f.code, f.params, .atOnce⟩, resultLost := s.host.resultLost || s.host.engine.code == 2, transaction := .none } := rfl

@[simp] theorem accept_now (f : CommandFrame) (s : State) :
    (accept f s).now = s.now := rfl

@[simp] theorem accept_freeUsed (f : CommandFrame) (s : State) :
    (accept f s).freeUsed = s.freeUsed := rfl

@[simp] theorem accept_pending (f : CommandFrame) (s : State) :
    (accept f s).pending = s.pending := rfl

/-! ### enterPhase -/

@[simp] theorem enterPhase_table (p : Phase) (s : State) :
    (enterPhase p s).table = s.table := rfl

@[simp] theorem enterPhase_lease (p : Phase) (s : State) :
    (enterPhase p s).lease = s.lease := rfl

@[simp] theorem enterPhase_admission (p : Phase) (s : State) :
    (enterPhase p s).admission = s.admission := rfl

@[simp] theorem enterPhase_join (p : Phase) (s : State) :
    (enterPhase p s).join = s.join := rfl

@[simp] theorem enterPhase_lookup (p : Phase) (s : State) :
    (enterPhase p s).lookup = s.lookup := rfl

@[simp] theorem enterPhase_phase (p : Phase) (s : State) :
    (enterPhase p s).phase =
      { s.phase with phase := p } := rfl

@[simp] theorem enterPhase_change (p : Phase) (s : State) :
    (enterPhase p s).change =
      { s.change with partCauses := s.change.partCauses ||| partPhase } := rfl

@[simp] theorem enterPhase_port (p : Phase) (s : State) :
    (enterPhase p s).port = s.port := rfl

@[simp] theorem enterPhase_host (p : Phase) (s : State) :
    (enterPhase p s).host = s.host := rfl

@[simp] theorem enterPhase_now (p : Phase) (s : State) :
    (enterPhase p s).now = s.now := rfl

@[simp] theorem enterPhase_freeUsed (p : Phase) (s : State) :
    (enterPhase p s).freeUsed = s.freeUsed := rfl

@[simp] theorem enterPhase_pending (p : Phase) (s : State) :
    (enterPhase p s).pending = s.pending := rfl

/-! ### stopClock -/

@[simp] theorem stopClock_table (s : State) :
    (stopClock s).table = s.table := rfl

@[simp] theorem stopClock_lease (s : State) :
    (stopClock s).lease =
      { nextTick := none, owed := Vector.replicate 160 0 } := rfl

@[simp] theorem stopClock_admission (s : State) :
    (stopClock s).admission = s.admission := rfl

@[simp] theorem stopClock_join (s : State) :
    (stopClock s).join = s.join := rfl

@[simp] theorem stopClock_lookup (s : State) :
    (stopClock s).lookup = s.lookup := rfl

@[simp] theorem stopClock_phase (s : State) :
    (stopClock s).phase = s.phase := rfl

@[simp] theorem stopClock_change (s : State) :
    (stopClock s).change = s.change := rfl

@[simp] theorem stopClock_port (s : State) :
    (stopClock s).port = s.port := rfl

@[simp] theorem stopClock_host (s : State) :
    (stopClock s).host = s.host := rfl

@[simp] theorem stopClock_now (s : State) :
    (stopClock s).now = s.now := rfl

@[simp] theorem stopClock_freeUsed (s : State) :
    (stopClock s).freeUsed = s.freeUsed := rfl

@[simp] theorem stopClock_pending (s : State) :
    (stopClock s).pending = s.pending := rfl

/-! ### refreshAlive -/

@[simp] theorem refreshAlive_table (s : State) :
    (refreshAlive s).table = s.table := rfl

@[simp] theorem refreshAlive_lease (s : State) :
    (refreshAlive s).lease = s.lease := rfl

@[simp] theorem refreshAlive_admission (s : State) :
    (refreshAlive s).admission = s.admission := rfl

@[simp] theorem refreshAlive_join (s : State) :
    (refreshAlive s).join = s.join := rfl

@[simp] theorem refreshAlive_lookup (s : State) :
    (refreshAlive s).lookup = s.lookup := rfl

@[simp] theorem refreshAlive_phase (s : State) :
    (refreshAlive s).phase = s.phase := rfl

@[simp] theorem refreshAlive_change (s : State) :
    (refreshAlive s).change = s.change := rfl

@[simp] theorem refreshAlive_port (s : State) :
    (refreshAlive s).port =
      { s.port with alive := true, silence := some (s.now + s.phase.params.segmentSilence * Config.unit50ms) } := rfl

@[simp] theorem refreshAlive_host (s : State) :
    (refreshAlive s).host = s.host := rfl

@[simp] theorem refreshAlive_now (s : State) :
    (refreshAlive s).now = s.now := rfl

@[simp] theorem refreshAlive_freeUsed (s : State) :
    (refreshAlive s).freeUsed = s.freeUsed := rfl

@[simp] theorem refreshAlive_pending (s : State) :
    (refreshAlive s).pending = s.pending := rfl

/-! ### takeOwed -/

@[simp] theorem takeOwed_table (i : Index) (s : State) :
    (takeOwed i s).table = s.table := rfl

@[simp] theorem takeOwed_lease (i : Index) (s : State) :
    (takeOwed i s).lease =
      { s.lease with owed := s.lease.owed.set i (s.lease.owed[i] - 1) } := rfl

@[simp] theorem takeOwed_admission (i : Index) (s : State) :
    (takeOwed i s).admission = s.admission := rfl

@[simp] theorem takeOwed_join (i : Index) (s : State) :
    (takeOwed i s).join = s.join := rfl

@[simp] theorem takeOwed_lookup (i : Index) (s : State) :
    (takeOwed i s).lookup = s.lookup := rfl

@[simp] theorem takeOwed_phase (i : Index) (s : State) :
    (takeOwed i s).phase = s.phase := rfl

@[simp] theorem takeOwed_change (i : Index) (s : State) :
    (takeOwed i s).change = s.change := rfl

@[simp] theorem takeOwed_port (i : Index) (s : State) :
    (takeOwed i s).port = s.port := rfl

@[simp] theorem takeOwed_host (i : Index) (s : State) :
    (takeOwed i s).host = s.host := rfl

@[simp] theorem takeOwed_now (i : Index) (s : State) :
    (takeOwed i s).now = s.now := rfl

@[simp] theorem takeOwed_freeUsed (i : Index) (s : State) :
    (takeOwed i s).freeUsed = s.freeUsed := rfl

@[simp] theorem takeOwed_pending (i : Index) (s : State) :
    (takeOwed i s).pending = s.pending := rfl

/-! ### lowerRemaining -/

@[simp] theorem lowerRemaining_table (i : Index) (s : State) :
    (lowerRemaining i s).table =
      { s.table with entries := s.table.entries.set i ((entry s i).countedDown 1) } := rfl

@[simp] theorem lowerRemaining_lease (i : Index) (s : State) :
    (lowerRemaining i s).lease = s.lease := rfl

@[simp] theorem lowerRemaining_admission (i : Index) (s : State) :
    (lowerRemaining i s).admission = s.admission := rfl

@[simp] theorem lowerRemaining_join (i : Index) (s : State) :
    (lowerRemaining i s).join = s.join := rfl

@[simp] theorem lowerRemaining_lookup (i : Index) (s : State) :
    (lowerRemaining i s).lookup = s.lookup := rfl

@[simp] theorem lowerRemaining_phase (i : Index) (s : State) :
    (lowerRemaining i s).phase = s.phase := rfl

@[simp] theorem lowerRemaining_change (i : Index) (s : State) :
    (lowerRemaining i s).change = s.change := rfl

@[simp] theorem lowerRemaining_port (i : Index) (s : State) :
    (lowerRemaining i s).port = s.port := rfl

@[simp] theorem lowerRemaining_host (i : Index) (s : State) :
    (lowerRemaining i s).host = s.host := rfl

@[simp] theorem lowerRemaining_now (i : Index) (s : State) :
    (lowerRemaining i s).now = s.now := rfl

@[simp] theorem lowerRemaining_freeUsed (i : Index) (s : State) :
    (lowerRemaining i s).freeUsed = s.freeUsed := rfl

@[simp] theorem lowerRemaining_pending (i : Index) (s : State) :
    (lowerRemaining i s).pending = s.pending := rfl

/-! ### carrierRises -/

@[simp] theorem carrierRises_table (s : State) :
    (carrierRises s).table = s.table := rfl

@[simp] theorem carrierRises_lease (s : State) :
    (carrierRises s).lease = s.lease := rfl

@[simp] theorem carrierRises_admission (s : State) :
    (carrierRises s).admission = s.admission := rfl

@[simp] theorem carrierRises_join (s : State) :
    (carrierRises s).join = s.join := rfl

@[simp] theorem carrierRises_lookup (s : State) :
    (carrierRises s).lookup = s.lookup := rfl

@[simp] theorem carrierRises_phase (s : State) :
    (carrierRises s).phase = s.phase := rfl

@[simp] theorem carrierRises_change (s : State) :
    (carrierRises s).change = s.change := rfl

@[simp] theorem carrierRises_port (s : State) :
    (carrierRises s).port =
      { s.port with carrier := true, overlapped := attemptUnderWay s } := rfl

@[simp] theorem carrierRises_host (s : State) :
    (carrierRises s).host = s.host := rfl

@[simp] theorem carrierRises_now (s : State) :
    (carrierRises s).now = s.now := rfl

@[simp] theorem carrierRises_freeUsed (s : State) :
    (carrierRises s).freeUsed = s.freeUsed := rfl

@[simp] theorem carrierRises_pending (s : State) :
    (carrierRises s).pending = s.pending := rfl

end Sys2Proof.Machine
end

