-- ==== Sys2Proof/Laws/Ops.lean ====
section
/-! SUPPORT. For each shared operation: what it can do, said once, and what it leaves alone. -/

namespace Sys2Proof.Machine

/-! ### count: its frame -/

@[simp] theorem count_table (c : Counter) (s : State) :
    (count c s).table = s.table := by
  unfold count; (repeat' split) <;> simp

@[simp] theorem count_lease (c : Counter) (s : State) :
    (count c s).lease = s.lease := by
  unfold count; (repeat' split) <;> simp

@[simp] theorem count_admission (c : Counter) (s : State) :
    (count c s).admission = s.admission := by
  unfold count; (repeat' split) <;> simp

@[simp] theorem count_join (c : Counter) (s : State) :
    (count c s).join = s.join := by
  unfold count; (repeat' split) <;> simp

@[simp] theorem count_lookup (c : Counter) (s : State) :
    (count c s).lookup = s.lookup := by
  unfold count; (repeat' split) <;> simp

@[simp] theorem count_phase (c : Counter) (s : State) :
    (count c s).phase = s.phase := by
  unfold count; (repeat' split) <;> simp

@[simp] theorem count_port (c : Counter) (s : State) :
    (count c s).port = s.port := by
  unfold count; (repeat' split) <;> simp

@[simp] theorem count_host (c : Counter) (s : State) :
    (count c s).host = s.host := by
  unfold count; (repeat' split) <;> simp

@[simp] theorem count_now (c : Counter) (s : State) :
    (count c s).now = s.now := by
  unfold count; (repeat' split) <;> simp

@[simp] theorem count_freeUsed (c : Counter) (s : State) :
    (count c s).freeUsed = s.freeUsed := by
  unfold count; (repeat' split) <;> simp

@[simp] theorem count_pending (c : Counter) (s : State) :
    (count c s).pending = s.pending := by
  unfold count; (repeat' split) <;> simp

/-! ### holdEntry: its frame -/

@[simp] theorem holdEntry_lease (c : HeldCause) (i : Index) (s : State) :
    (holdEntry c i s).lease = s.lease := by
  unfold holdEntry; (repeat' split) <;> simp

@[simp] theorem holdEntry_admission (c : HeldCause) (i : Index) (s : State) :
    (holdEntry c i s).admission = s.admission := by
  unfold holdEntry; (repeat' split) <;> simp

@[simp] theorem holdEntry_join (c : HeldCause) (i : Index) (s : State) :
    (holdEntry c i s).join = s.join := by
  unfold holdEntry; (repeat' split) <;> simp

@[simp] theorem holdEntry_lookup (c : HeldCause) (i : Index) (s : State) :
    (holdEntry c i s).lookup = s.lookup := by
  unfold holdEntry; (repeat' split) <;> simp

@[simp] theorem holdEntry_phase (c : HeldCause) (i : Index) (s : State) :
    (holdEntry c i s).phase = s.phase := by
  unfold holdEntry; (repeat' split) <;> simp

@[simp] theorem holdEntry_port (c : HeldCause) (i : Index) (s : State) :
    (holdEntry c i s).port = s.port := by
  unfold holdEntry; (repeat' split) <;> simp

@[simp] theorem holdEntry_host (c : HeldCause) (i : Index) (s : State) :
    (holdEntry c i s).host = s.host := by
  unfold holdEntry; (repeat' split) <;> simp

@[simp] theorem holdEntry_now (c : HeldCause) (i : Index) (s : State) :
    (holdEntry c i s).now = s.now := by
  unfold holdEntry; (repeat' split) <;> simp

@[simp] theorem holdEntry_freeUsed (c : HeldCause) (i : Index) (s : State) :
    (holdEntry c i s).freeUsed = s.freeUsed := by
  unfold holdEntry; (repeat' split) <;> simp

@[simp] theorem holdEntry_pending (c : HeldCause) (i : Index) (s : State) :
    (holdEntry c i s).pending = s.pending := by
  unfold holdEntry; (repeat' split) <;> simp

/-! ### endBinding: its frame -/

@[simp] theorem endBinding_lease (c : HeldCause) (i : Index) (s : State) :
    (endBinding c i s).lease = s.lease := by
  unfold endBinding; (repeat' split) <;> simp

@[simp] theorem endBinding_admission (c : HeldCause) (i : Index) (s : State) :
    (endBinding c i s).admission = s.admission := by
  unfold endBinding; (repeat' split) <;> simp

@[simp] theorem endBinding_join (c : HeldCause) (i : Index) (s : State) :
    (endBinding c i s).join = s.join := by
  unfold endBinding; (repeat' split) <;> simp

@[simp] theorem endBinding_lookup (c : HeldCause) (i : Index) (s : State) :
    (endBinding c i s).lookup = s.lookup := by
  unfold endBinding; (repeat' split) <;> simp

@[simp] theorem endBinding_phase (c : HeldCause) (i : Index) (s : State) :
    (endBinding c i s).phase = s.phase := by
  unfold endBinding; (repeat' split) <;> simp

@[simp] theorem endBinding_port (c : HeldCause) (i : Index) (s : State) :
    (endBinding c i s).port = s.port := by
  unfold endBinding; (repeat' split) <;> simp

@[simp] theorem endBinding_host (c : HeldCause) (i : Index) (s : State) :
    (endBinding c i s).host = s.host := by
  unfold endBinding; (repeat' split) <;> simp

@[simp] theorem endBinding_now (c : HeldCause) (i : Index) (s : State) :
    (endBinding c i s).now = s.now := by
  unfold endBinding; (repeat' split) <;> simp

@[simp] theorem endBinding_freeUsed (c : HeldCause) (i : Index) (s : State) :
    (endBinding c i s).freeUsed = s.freeUsed := by
  unfold endBinding; (repeat' split) <;> simp

@[simp] theorem endBinding_pending (c : HeldCause) (i : Index) (s : State) :
    (endBinding c i s).pending = s.pending := by
  unfold endBinding; (repeat' split) <;> simp

/-! ### addCollision: its frame -/

@[simp] theorem addCollision_lease (i : Index) (s : State) :
    (addCollision i s).lease = s.lease := by
  simp only [addCollision]; split <;> simp

@[simp] theorem addCollision_admission (i : Index) (s : State) :
    (addCollision i s).admission = s.admission := by
  simp only [addCollision]; split <;> simp

@[simp] theorem addCollision_join (i : Index) (s : State) :
    (addCollision i s).join = s.join := by
  simp only [addCollision]; split <;> simp

@[simp] theorem addCollision_lookup (i : Index) (s : State) :
    (addCollision i s).lookup = s.lookup := by
  simp only [addCollision]; split <;> simp

@[simp] theorem addCollision_phase (i : Index) (s : State) :
    (addCollision i s).phase = s.phase := by
  simp only [addCollision]; split <;> simp

@[simp] theorem addCollision_port (i : Index) (s : State) :
    (addCollision i s).port = s.port := by
  simp only [addCollision]; split <;> simp

@[simp] theorem addCollision_host (i : Index) (s : State) :
    (addCollision i s).host = s.host := by
  simp only [addCollision]; split <;> simp

@[simp] theorem addCollision_now (i : Index) (s : State) :
    (addCollision i s).now = s.now := by
  simp only [addCollision]; split <;> simp

@[simp] theorem addCollision_freeUsed (i : Index) (s : State) :
    (addCollision i s).freeUsed = s.freeUsed := by
  simp only [addCollision]; split <;> simp

@[simp] theorem addCollision_pending (i : Index) (s : State) :
    (addCollision i s).pending = s.pending := by
  simp only [addCollision]; split <;> simp

/-! ### addDuplicate: its frame -/

@[simp] theorem addDuplicate_lease (i : Index) (s : State) :
    (addDuplicate i s).lease = s.lease := by
  simp only [addDuplicate]; split <;> simp

@[simp] theorem addDuplicate_admission (i : Index) (s : State) :
    (addDuplicate i s).admission = s.admission := by
  simp only [addDuplicate]; split <;> simp

@[simp] theorem addDuplicate_join (i : Index) (s : State) :
    (addDuplicate i s).join = s.join := by
  simp only [addDuplicate]; split <;> simp

@[simp] theorem addDuplicate_lookup (i : Index) (s : State) :
    (addDuplicate i s).lookup = s.lookup := by
  simp only [addDuplicate]; split <;> simp

@[simp] theorem addDuplicate_phase (i : Index) (s : State) :
    (addDuplicate i s).phase = s.phase := by
  simp only [addDuplicate]; split <;> simp

@[simp] theorem addDuplicate_port (i : Index) (s : State) :
    (addDuplicate i s).port = s.port := by
  simp only [addDuplicate]; split <;> simp

@[simp] theorem addDuplicate_host (i : Index) (s : State) :
    (addDuplicate i s).host = s.host := by
  simp only [addDuplicate]; split <;> simp

@[simp] theorem addDuplicate_now (i : Index) (s : State) :
    (addDuplicate i s).now = s.now := by
  simp only [addDuplicate]; split <;> simp

@[simp] theorem addDuplicate_freeUsed (i : Index) (s : State) :
    (addDuplicate i s).freeUsed = s.freeUsed := by
  simp only [addDuplicate]; split <;> simp

@[simp] theorem addDuplicate_pending (i : Index) (s : State) :
    (addDuplicate i s).pending = s.pending := by
  simp only [addDuplicate]; split <;> simp

/-! ### finish: its frame -/

@[simp] theorem finish_table (st : Status) (d : List Byte) (s : State) :
    (finish st d s).table = s.table := by
  unfold finish; (repeat' split) <;> simp

@[simp] theorem finish_lease (st : Status) (d : List Byte) (s : State) :
    (finish st d s).lease = s.lease := by
  unfold finish; (repeat' split) <;> simp

@[simp] theorem finish_admission (st : Status) (d : List Byte) (s : State) :
    (finish st d s).admission = s.admission := by
  unfold finish; (repeat' split) <;> simp

@[simp] theorem finish_join (st : Status) (d : List Byte) (s : State) :
    (finish st d s).join = s.join := by
  unfold finish; (repeat' split) <;> simp

@[simp] theorem finish_lookup (st : Status) (d : List Byte) (s : State) :
    (finish st d s).lookup = s.lookup := by
  unfold finish; (repeat' split) <;> simp

@[simp] theorem finish_phase (st : Status) (d : List Byte) (s : State) :
    (finish st d s).phase = s.phase := by
  unfold finish; (repeat' split) <;> simp

@[simp] theorem finish_change (st : Status) (d : List Byte) (s : State) :
    (finish st d s).change = s.change := by
  unfold finish; (repeat' split) <;> simp

@[simp] theorem finish_port (st : Status) (d : List Byte) (s : State) :
    (finish st d s).port = s.port := by
  unfold finish; (repeat' split) <;> simp

@[simp] theorem finish_now (st : Status) (d : List Byte) (s : State) :
    (finish st d s).now = s.now := by
  unfold finish; (repeat' split) <;> simp

@[simp] theorem finish_freeUsed (st : Status) (d : List Byte) (s : State) :
    (finish st d s).freeUsed = s.freeUsed := by
  unfold finish; (repeat' split) <;> simp

@[simp] theorem finish_pending (st : Status) (d : List Byte) (s : State) :
    (finish st d s).pending = s.pending := by
  unfold finish; (repeat' split) <;> simp

/-! ### waitFor: its frame -/

@[simp] theorem waitFor_table (w : Work) (s : State) :
    (waitFor w s).table = s.table := by
  unfold waitFor; (repeat' split) <;> simp

@[simp] theorem waitFor_lease (w : Work) (s : State) :
    (waitFor w s).lease = s.lease := by
  unfold waitFor; (repeat' split) <;> simp

@[simp] theorem waitFor_admission (w : Work) (s : State) :
    (waitFor w s).admission = s.admission := by
  unfold waitFor; (repeat' split) <;> simp

@[simp] theorem waitFor_join (w : Work) (s : State) :
    (waitFor w s).join = s.join := by
  unfold waitFor; (repeat' split) <;> simp

@[simp] theorem waitFor_lookup (w : Work) (s : State) :
    (waitFor w s).lookup = s.lookup := by
  unfold waitFor; (repeat' split) <;> simp

@[simp] theorem waitFor_phase (w : Work) (s : State) :
    (waitFor w s).phase = s.phase := by
  unfold waitFor; (repeat' split) <;> simp

@[simp] theorem waitFor_change (w : Work) (s : State) :
    (waitFor w s).change = s.change := by
  unfold waitFor; (repeat' split) <;> simp

@[simp] theorem waitFor_port (w : Work) (s : State) :
    (waitFor w s).port = s.port := by
  unfold waitFor; (repeat' split) <;> simp

@[simp] theorem waitFor_now (w : Work) (s : State) :
    (waitFor w s).now = s.now := by
  unfold waitFor; (repeat' split) <;> simp

@[simp] theorem waitFor_freeUsed (w : Work) (s : State) :
    (waitFor w s).freeUsed = s.freeUsed := by
  unfold waitFor; (repeat' split) <;> simp

@[simp] theorem waitFor_pending (w : Work) (s : State) :
    (waitFor w s).pending = s.pending := by
  unfold waitFor; (repeat' split) <;> simp

/-! ### reportTo: its frame -/

@[simp] theorem reportTo_table (o : NoticeOutcome) (w : Waiter) (s : State) :
    (reportTo o w s).table = s.table := by
  unfold reportTo; (repeat' split) <;> simp

@[simp] theorem reportTo_lease (o : NoticeOutcome) (w : Waiter) (s : State) :
    (reportTo o w s).lease = s.lease := by
  unfold reportTo; (repeat' split) <;> simp

@[simp] theorem reportTo_admission (o : NoticeOutcome) (w : Waiter) (s : State) :
    (reportTo o w s).admission = s.admission := by
  unfold reportTo; (repeat' split) <;> simp

@[simp] theorem reportTo_lookup (o : NoticeOutcome) (w : Waiter) (s : State) :
    (reportTo o w s).lookup = s.lookup := by
  unfold reportTo; (repeat' split) <;> simp

@[simp] theorem reportTo_phase (o : NoticeOutcome) (w : Waiter) (s : State) :
    (reportTo o w s).phase = s.phase := by
  unfold reportTo; (repeat' split) <;> simp

@[simp] theorem reportTo_change (o : NoticeOutcome) (w : Waiter) (s : State) :
    (reportTo o w s).change = s.change := by
  unfold reportTo; (repeat' split) <;> simp

@[simp] theorem reportTo_port (o : NoticeOutcome) (w : Waiter) (s : State) :
    (reportTo o w s).port = s.port := by
  unfold reportTo; (repeat' split) <;> simp

@[simp] theorem reportTo_now (o : NoticeOutcome) (w : Waiter) (s : State) :
    (reportTo o w s).now = s.now := by
  unfold reportTo; (repeat' split) <;> simp

@[simp] theorem reportTo_freeUsed (o : NoticeOutcome) (w : Waiter) (s : State) :
    (reportTo o w s).freeUsed = s.freeUsed := by
  unfold reportTo; (repeat' split) <;> simp

@[simp] theorem reportTo_pending (o : NoticeOutcome) (w : Waiter) (s : State) :
    (reportTo o w s).pending = s.pending := by
  unfold reportTo; (repeat' split) <;> simp

/-! ### reportAll: its frame -/

@[simp] theorem reportAll_table (o : NoticeOutcome) (ws : List Waiter) (s : State) :
    (reportAll o ws s).table = s.table := by
  unfold reportAll; induction ws generalizing s <;> simp_all [List.foldl]

@[simp] theorem reportAll_lease (o : NoticeOutcome) (ws : List Waiter) (s : State) :
    (reportAll o ws s).lease = s.lease := by
  unfold reportAll; induction ws generalizing s <;> simp_all [List.foldl]

@[simp] theorem reportAll_admission (o : NoticeOutcome) (ws : List Waiter) (s : State) :
    (reportAll o ws s).admission = s.admission := by
  unfold reportAll; induction ws generalizing s <;> simp_all [List.foldl]

@[simp] theorem reportAll_lookup (o : NoticeOutcome) (ws : List Waiter) (s : State) :
    (reportAll o ws s).lookup = s.lookup := by
  unfold reportAll; induction ws generalizing s <;> simp_all [List.foldl]

@[simp] theorem reportAll_phase (o : NoticeOutcome) (ws : List Waiter) (s : State) :
    (reportAll o ws s).phase = s.phase := by
  unfold reportAll; induction ws generalizing s <;> simp_all [List.foldl]

@[simp] theorem reportAll_change (o : NoticeOutcome) (ws : List Waiter) (s : State) :
    (reportAll o ws s).change = s.change := by
  unfold reportAll; induction ws generalizing s <;> simp_all [List.foldl]

@[simp] theorem reportAll_port (o : NoticeOutcome) (ws : List Waiter) (s : State) :
    (reportAll o ws s).port = s.port := by
  unfold reportAll; induction ws generalizing s <;> simp_all [List.foldl]

@[simp] theorem reportAll_now (o : NoticeOutcome) (ws : List Waiter) (s : State) :
    (reportAll o ws s).now = s.now := by
  unfold reportAll; induction ws generalizing s <;> simp_all [List.foldl]

@[simp] theorem reportAll_freeUsed (o : NoticeOutcome) (ws : List Waiter) (s : State) :
    (reportAll o ws s).freeUsed = s.freeUsed := by
  unfold reportAll; induction ws generalizing s <;> simp_all [List.foldl]

@[simp] theorem reportAll_pending (o : NoticeOutcome) (ws : List Waiter) (s : State) :
    (reportAll o ws s).pending = s.pending := by
  unfold reportAll; induction ws generalizing s <;> simp_all [List.foldl]

/-! ### takeUp: its frame -/

@[simp] theorem takeUp_table (s : State) : (takeUp s).table = s.table := by
  unfold takeUp; split <;> rfl

@[simp] theorem takeUp_lease (s : State) : (takeUp s).lease = s.lease := by
  unfold takeUp; split <;> rfl

@[simp] theorem takeUp_admission (s : State) : (takeUp s).admission = s.admission := by
  unfold takeUp; split <;> rfl

@[simp] theorem takeUp_join (s : State) : (takeUp s).join = s.join := by
  unfold takeUp; split <;> rfl

@[simp] theorem takeUp_lookup (s : State) : (takeUp s).lookup = s.lookup := by
  unfold takeUp; split <;> rfl

@[simp] theorem takeUp_phase (s : State) : (takeUp s).phase = s.phase := by
  unfold takeUp; split <;> rfl

@[simp] theorem takeUp_change (s : State) : (takeUp s).change = s.change := by
  unfold takeUp; split <;> rfl

@[simp] theorem takeUp_host (s : State) : (takeUp s).host = s.host := by
  unfold takeUp; split <;> rfl

@[simp] theorem takeUp_now (s : State) : (takeUp s).now = s.now := by
  unfold takeUp; split <;> rfl

@[simp] theorem takeUp_freeUsed (s : State) : (takeUp s).freeUsed = s.freeUsed := by
  unfold takeUp; split <;> rfl

@[simp] theorem takeUp_pending (s : State) : (takeUp s).pending = s.pending := by
  unfold takeUp; split <;> rfl

@[simp] theorem takeUp_inbound (s : State) : (takeUp s).port.inbound = s.port.inbound := by
  unfold takeUp; split <;> rfl

@[simp] theorem takeUp_queue (s : State) : (takeUp s).port.queue = s.port.queue := by
  unfold takeUp; split <;> rfl

@[simp] theorem takeUp_surviving (s : State) : (takeUp s).port.surviving = s.port.surviving := by
  unfold takeUp; split <;> rfl

@[simp] theorem takeUp_carrier (s : State) : (takeUp s).port.carrier = s.port.carrier := by
  unfold takeUp; split <;> rfl

@[simp] theorem takeUp_quietFrom (s : State) : (takeUp s).port.quietFrom = s.port.quietFrom := by
  unfold takeUp; split <;> rfl

@[simp] theorem takeUp_quietCarried (s : State) : (takeUp s).port.quietCarried = s.port.quietCarried := by
  unfold takeUp; split <;> rfl

@[simp] theorem takeUp_alive (s : State) : (takeUp s).port.alive = s.port.alive := by
  unfold takeUp; split <;> rfl

@[simp] theorem takeUp_silence (s : State) : (takeUp s).port.silence = s.port.silence := by
  unfold takeUp; split <;> rfl

/-- The head is taken up (R128): its attempt begins at once where the gap is over, and otherwise the
transmitter waits for the gap. -/
theorem takeUp_cases (s : State) :
    (gapOver s = true
        ∧ takeUp s = { s with port.tx := .sending s.now, port.overlapped := false })
      ∨ (gapOver s = false ∧ takeUp s = { s with port.tx := .deferring none }) := by
  unfold takeUp
  cases h : gapOver s with
  | true => exact Or.inl ⟨rfl, if_pos rfl⟩
  | false => exact Or.inr ⟨rfl, if_neg (by simp)⟩

/-- Right after carrier fell the gap is still to run. -/
theorem takeUp_quiet_new {s : State} (hf : s.port.quietFrom = s.now)
    (hc : s.port.quietCarried = 0) : takeUp s = { s with port.tx := .deferring none } := by
  rcases takeUp_cases s with ⟨h, _⟩ | ⟨_, h⟩
  · simp [gapOver, quietBits, hf, hc, Config.gapBits] at h
  · exact h

/-- A transmitter that has taken up a head is not IDLE. -/
theorem takeUp_not_idle (s : State) : (takeUp s).port.tx ≠ .idle := by
  rcases takeUp_cases s with ⟨_, h⟩ | ⟨_, h⟩ <;> rw [h] <;> simp

/-! ### handOver: its frame -/

@[simp] theorem handOver_table (d : Nat) (a : Answer) (ws : List Waiter) (s : State) :
    (handOver d a ws s).table = s.table := by
  unfold handOver; (repeat' split) <;> simp

@[simp] theorem handOver_lease (d : Nat) (a : Answer) (ws : List Waiter) (s : State) :
    (handOver d a ws s).lease = s.lease := by
  unfold handOver; (repeat' split) <;> simp

@[simp] theorem handOver_admission (d : Nat) (a : Answer) (ws : List Waiter) (s : State) :
    (handOver d a ws s).admission = s.admission := by
  unfold handOver; (repeat' split) <;> simp

@[simp] theorem handOver_lookup (d : Nat) (a : Answer) (ws : List Waiter) (s : State) :
    (handOver d a ws s).lookup = s.lookup := by
  unfold handOver; (repeat' split) <;> simp

@[simp] theorem handOver_phase (d : Nat) (a : Answer) (ws : List Waiter) (s : State) :
    (handOver d a ws s).phase = s.phase := by
  unfold handOver; (repeat' split) <;> simp

@[simp] theorem handOver_now (d : Nat) (a : Answer) (ws : List Waiter) (s : State) :
    (handOver d a ws s).now = s.now := by
  unfold handOver; (repeat' split) <;> simp

@[simp] theorem handOver_freeUsed (d : Nat) (a : Answer) (ws : List Waiter) (s : State) :
    (handOver d a ws s).freeUsed = s.freeUsed := by
  unfold handOver; (repeat' split) <;> simp

@[simp] theorem handOver_pending (d : Nat) (a : Answer) (ws : List Waiter) (s : State) :
    (handOver d a ws s).pending = s.pending := by
  unfold handOver; (repeat' split) <;> simp

/-! ### send: its frame -/

@[simp] theorem send_table (d : Nat) (a : Answer) (s : State) :
    (send d a s).table = s.table := by
  simp [send]

@[simp] theorem send_lease (d : Nat) (a : Answer) (s : State) :
    (send d a s).lease = s.lease := by
  simp [send]

@[simp] theorem send_admission (d : Nat) (a : Answer) (s : State) :
    (send d a s).admission = s.admission := by
  simp [send]

@[simp] theorem send_lookup (d : Nat) (a : Answer) (s : State) :
    (send d a s).lookup = s.lookup := by
  simp [send]

@[simp] theorem send_phase (d : Nat) (a : Answer) (s : State) :
    (send d a s).phase = s.phase := by
  simp [send]

@[simp] theorem send_now (d : Nat) (a : Answer) (s : State) :
    (send d a s).now = s.now := by
  simp [send]

@[simp] theorem send_freeUsed (d : Nat) (a : Answer) (s : State) :
    (send d a s).freeUsed = s.freeUsed := by
  simp [send]

@[simp] theorem send_pending (d : Nat) (a : Answer) (s : State) :
    (send d a s).pending = s.pending := by
  simp [send]

/-! ### refuse: its frame -/

@[simp] theorem refuse_table (d : Nat) (x : Identity) (k : ReqKind) (r : Reason) (s : State) :
    (refuse d x k r s).table = s.table := by
  simp [refuse]

@[simp] theorem refuse_lease (d : Nat) (x : Identity) (k : ReqKind) (r : Reason) (s : State) :
    (refuse d x k r s).lease = s.lease := by
  simp [refuse]

@[simp] theorem refuse_admission (d : Nat) (x : Identity) (k : ReqKind) (r : Reason) (s : State) :
    (refuse d x k r s).admission = s.admission := by
  simp [refuse]

@[simp] theorem refuse_lookup (d : Nat) (x : Identity) (k : ReqKind) (r : Reason) (s : State) :
    (refuse d x k r s).lookup = s.lookup := by
  simp [refuse]

@[simp] theorem refuse_phase (d : Nat) (x : Identity) (k : ReqKind) (r : Reason) (s : State) :
    (refuse d x k r s).phase = s.phase := by
  simp [refuse]

@[simp] theorem refuse_now (d : Nat) (x : Identity) (k : ReqKind) (r : Reason) (s : State) :
    (refuse d x k r s).now = s.now := by
  simp [refuse]

@[simp] theorem refuse_freeUsed (d : Nat) (x : Identity) (k : ReqKind) (r : Reason) (s : State) :
    (refuse d x k r s).freeUsed = s.freeUsed := by
  simp [refuse]

@[simp] theorem refuse_pending (d : Nat) (x : Identity) (k : ReqKind) (r : Reason) (s : State) :
    (refuse d x k r s).pending = s.pending := by
  simp [refuse]

/-! ### holdoff: its frame -/

@[simp] theorem holdoff_table (x : Identity) (s : State) :
    (holdoff x s).table = s.table := by
  simp [holdoff]

@[simp] theorem holdoff_lease (x : Identity) (s : State) :
    (holdoff x s).lease = s.lease := by
  simp [holdoff]

@[simp] theorem holdoff_lookup (x : Identity) (s : State) :
    (holdoff x s).lookup = s.lookup := by
  simp [holdoff]

@[simp] theorem holdoff_phase (x : Identity) (s : State) :
    (holdoff x s).phase = s.phase := by
  simp [holdoff]

@[simp] theorem holdoff_now (x : Identity) (s : State) :
    (holdoff x s).now = s.now := by
  simp [holdoff]

@[simp] theorem holdoff_freeUsed (x : Identity) (s : State) :
    (holdoff x s).freeUsed = s.freeUsed := by
  simp [holdoff]

@[simp] theorem holdoff_pending (x : Identity) (s : State) :
    (holdoff x s).pending = s.pending := by
  simp [holdoff]

/-! ### promote: its frame -/

@[simp] theorem promote_table (q : List QueuedMessage) (s : State) :
    (promote q s).table = s.table := by
  induction q generalizing s with
  | nil => rfl
  | cons m rest ih => unfold promote; split <;> simp [ih]

@[simp] theorem promote_lease (q : List QueuedMessage) (s : State) :
    (promote q s).lease = s.lease := by
  induction q generalizing s with
  | nil => rfl
  | cons m rest ih => unfold promote; split <;> simp [ih]

@[simp] theorem promote_admission (q : List QueuedMessage) (s : State) :
    (promote q s).admission = s.admission := by
  induction q generalizing s with
  | nil => rfl
  | cons m rest ih => unfold promote; split <;> simp [ih]

@[simp] theorem promote_lookup (q : List QueuedMessage) (s : State) :
    (promote q s).lookup = s.lookup := by
  induction q generalizing s with
  | nil => rfl
  | cons m rest ih => unfold promote; split <;> simp [ih]

@[simp] theorem promote_phase (q : List QueuedMessage) (s : State) :
    (promote q s).phase = s.phase := by
  induction q generalizing s with
  | nil => rfl
  | cons m rest ih => unfold promote; split <;> simp [ih]

@[simp] theorem promote_now (q : List QueuedMessage) (s : State) :
    (promote q s).now = s.now := by
  induction q generalizing s with
  | nil => rfl
  | cons m rest ih => unfold promote; split <;> simp [ih]

@[simp] theorem promote_freeUsed (q : List QueuedMessage) (s : State) :
    (promote q s).freeUsed = s.freeUsed := by
  induction q generalizing s with
  | nil => rfl
  | cons m rest ih => unfold promote; split <;> simp [ih]

@[simp] theorem promote_pending (q : List QueuedMessage) (s : State) :
    (promote q s).pending = s.pending := by
  induction q generalizing s with
  | nil => rfl
  | cons m rest ih => unfold promote; split <;> simp [ih]

/-! ### withdraw: its frame -/

@[simp] theorem withdraw_lease (i : Index) (s : State) :
    (withdraw i s).lease = s.lease := by
  unfold withdraw; (repeat' split) <;> simp

@[simp] theorem withdraw_admission (i : Index) (s : State) :
    (withdraw i s).admission = s.admission := by
  unfold withdraw; (repeat' split) <;> simp

@[simp] theorem withdraw_join (i : Index) (s : State) :
    (withdraw i s).join = s.join := by
  unfold withdraw; (repeat' split) <;> simp

@[simp] theorem withdraw_lookup (i : Index) (s : State) :
    (withdraw i s).lookup = s.lookup := by
  unfold withdraw; (repeat' split) <;> simp

@[simp] theorem withdraw_phase (i : Index) (s : State) :
    (withdraw i s).phase = s.phase := by
  unfold withdraw; (repeat' split) <;> simp

@[simp] theorem withdraw_port (i : Index) (s : State) :
    (withdraw i s).port = s.port := by
  unfold withdraw; (repeat' split) <;> simp

@[simp] theorem withdraw_host (i : Index) (s : State) :
    (withdraw i s).host = s.host := by
  unfold withdraw; (repeat' split) <;> simp

@[simp] theorem withdraw_now (i : Index) (s : State) :
    (withdraw i s).now = s.now := by
  unfold withdraw; (repeat' split) <;> simp

@[simp] theorem withdraw_freeUsed (i : Index) (s : State) :
    (withdraw i s).freeUsed = s.freeUsed := by
  unfold withdraw; (repeat' split) <;> simp

@[simp] theorem withdraw_pending (i : Index) (s : State) :
    (withdraw i s).pending = s.pending := by
  unfold withdraw; (repeat' split) <;> simp

/-! ### closeContext: its frame -/

@[simp] theorem closeContext_lease (c : CtxNum) (s : State) :
    (closeContext c s).lease = s.lease := by
  unfold closeContext; (repeat' split) <;> simp

@[simp] theorem closeContext_admission (c : CtxNum) (s : State) :
    (closeContext c s).admission = s.admission := by
  unfold closeContext; (repeat' split) <;> simp

@[simp] theorem closeContext_lookup (c : CtxNum) (s : State) :
    (closeContext c s).lookup = s.lookup := by
  unfold closeContext; (repeat' split) <;> simp

@[simp] theorem closeContext_phase (c : CtxNum) (s : State) :
    (closeContext c s).phase = s.phase := by
  unfold closeContext; (repeat' split) <;> simp

@[simp] theorem closeContext_port (c : CtxNum) (s : State) :
    (closeContext c s).port = s.port := by
  unfold closeContext; (repeat' split) <;> simp

@[simp] theorem closeContext_host (c : CtxNum) (s : State) :
    (closeContext c s).host = s.host := by
  unfold closeContext; (repeat' split) <;> simp

@[simp] theorem closeContext_now (c : CtxNum) (s : State) :
    (closeContext c s).now = s.now := by
  unfold closeContext; (repeat' split) <;> simp

@[simp] theorem closeContext_freeUsed (c : CtxNum) (s : State) :
    (closeContext c s).freeUsed = s.freeUsed := by
  unfold closeContext; (repeat' split) <;> simp

@[simp] theorem closeContext_pending (c : CtxNum) (s : State) :
    (closeContext c s).pending = s.pending := by
  unfold closeContext; (repeat' split) <;> simp

/-! ### closeRefused: its frame -/

@[simp] theorem closeRefused_lease (c : CtxNum) (k : ReqKind) (r : Reason) (s : State) :
    (closeRefused c k r s).lease = s.lease := by
  unfold closeRefused; (repeat' split) <;> simp

@[simp] theorem closeRefused_admission (c : CtxNum) (k : ReqKind) (r : Reason) (s : State) :
    (closeRefused c k r s).admission = s.admission := by
  unfold closeRefused; (repeat' split) <;> simp

@[simp] theorem closeRefused_lookup (c : CtxNum) (k : ReqKind) (r : Reason) (s : State) :
    (closeRefused c k r s).lookup = s.lookup := by
  unfold closeRefused; (repeat' split) <;> simp

@[simp] theorem closeRefused_phase (c : CtxNum) (k : ReqKind) (r : Reason) (s : State) :
    (closeRefused c k r s).phase = s.phase := by
  unfold closeRefused; (repeat' split) <;> simp

@[simp] theorem closeRefused_now (c : CtxNum) (k : ReqKind) (r : Reason) (s : State) :
    (closeRefused c k r s).now = s.now := by
  unfold closeRefused; (repeat' split) <;> simp

@[simp] theorem closeRefused_freeUsed (c : CtxNum) (k : ReqKind) (r : Reason) (s : State) :
    (closeRefused c k r s).freeUsed = s.freeUsed := by
  unfold closeRefused; (repeat' split) <;> simp

@[simp] theorem closeRefused_pending (c : CtxNum) (k : ReqKind) (r : Reason) (s : State) :
    (closeRefused c k r s).pending = s.pending := by
  unfold closeRefused; (repeat' split) <;> simp

/-! ### closeUnasked: its frame -/

@[simp] theorem closeUnasked_lease (c : CtxNum) (r : Reason) (s : State) :
    (closeUnasked c r s).lease = s.lease := by
  simp [closeUnasked]

@[simp] theorem closeUnasked_admission (c : CtxNum) (r : Reason) (s : State) :
    (closeUnasked c r s).admission = s.admission := by
  simp [closeUnasked]

@[simp] theorem closeUnasked_lookup (c : CtxNum) (r : Reason) (s : State) :
    (closeUnasked c r s).lookup = s.lookup := by
  simp [closeUnasked]

@[simp] theorem closeUnasked_phase (c : CtxNum) (r : Reason) (s : State) :
    (closeUnasked c r s).phase = s.phase := by
  simp [closeUnasked]

@[simp] theorem closeUnasked_now (c : CtxNum) (r : Reason) (s : State) :
    (closeUnasked c r s).now = s.now := by
  simp [closeUnasked]

@[simp] theorem closeUnasked_pending (c : CtxNum) (r : Reason) (s : State) :
    (closeUnasked c r s).pending = s.pending := by
  simp [closeUnasked]

/-! ### reserveAndOffer: its frame -/

@[simp] theorem reserveAndOffer_lease (c : CtxNum) (x : Exchange) (i : Index)
    (a : Nat) (k : Cls) (w l : Nat) (s : State) :
    (reserveAndOffer c x i a k w l s).lease = s.lease := by
  simp [reserveAndOffer]

@[simp] theorem reserveAndOffer_admission (c : CtxNum) (x : Exchange) (i : Index)
    (a : Nat) (k : Cls) (w l : Nat) (s : State) :
    (reserveAndOffer c x i a k w l s).admission = s.admission := by
  simp [reserveAndOffer]

@[simp] theorem reserveAndOffer_lookup (c : CtxNum) (x : Exchange) (i : Index)
    (a : Nat) (k : Cls) (w l : Nat) (s : State) :
    (reserveAndOffer c x i a k w l s).lookup = s.lookup := by
  simp [reserveAndOffer]

@[simp] theorem reserveAndOffer_phase (c : CtxNum) (x : Exchange) (i : Index)
    (a : Nat) (k : Cls) (w l : Nat) (s : State) :
    (reserveAndOffer c x i a k w l s).phase = s.phase := by
  simp [reserveAndOffer]

@[simp] theorem reserveAndOffer_now (c : CtxNum) (x : Exchange) (i : Index)
    (a : Nat) (k : Cls) (w l : Nat) (s : State) :
    (reserveAndOffer c x i a k w l s).now = s.now := by
  simp [reserveAndOffer]

@[simp] theorem reserveAndOffer_freeUsed (c : CtxNum) (x : Exchange) (i : Index)
    (a : Nat) (k : Cls) (w l : Nat) (s : State) :
    (reserveAndOffer c x i a k w l s).freeUsed = s.freeUsed := by
  simp [reserveAndOffer]

@[simp] theorem reserveAndOffer_pending (c : CtxNum) (x : Exchange) (i : Index)
    (a : Nat) (k : Cls) (w l : Nat) (s : State) :
    (reserveAndOffer c x i a k w l s).pending = s.pending := by
  simp [reserveAndOffer]

/-! ### sendCheck: its frame -/

@[simp] theorem sendCheck_lease (c : CtxNum) (x : Exchange) (n a : Nat) (s : State) :
    (sendCheck c x n a s).lease = s.lease := by
  simp [sendCheck]

@[simp] theorem sendCheck_admission (c : CtxNum) (x : Exchange) (n a : Nat) (s : State) :
    (sendCheck c x n a s).admission = s.admission := by
  simp [sendCheck]

@[simp] theorem sendCheck_lookup (c : CtxNum) (x : Exchange) (n a : Nat) (s : State) :
    (sendCheck c x n a s).lookup = s.lookup := by
  simp [sendCheck]

@[simp] theorem sendCheck_phase (c : CtxNum) (x : Exchange) (n a : Nat) (s : State) :
    (sendCheck c x n a s).phase = s.phase := by
  simp [sendCheck]

@[simp] theorem sendCheck_now (c : CtxNum) (x : Exchange) (n a : Nat) (s : State) :
    (sendCheck c x n a s).now = s.now := by
  simp [sendCheck]

@[simp] theorem sendCheck_freeUsed (c : CtxNum) (x : Exchange) (n a : Nat) (s : State) :
    (sendCheck c x n a s).freeUsed = s.freeUsed := by
  simp [sendCheck]

@[simp] theorem sendCheck_pending (c : CtxNum) (x : Exchange) (n a : Nat) (s : State) :
    (sendCheck c x n a s).pending = s.pending := by
  simp [sendCheck]

/-! ### What each operation can do -/

/-- Resolution's allocation either takes a FREE entry as it is or frees a HELD one (R17, R18). -/
theorem allocate_cases {s : State} {i : Index} {t : State} (h : allocate s = some (i, t)) :
    (lowestFree s = some i ∧ t = s)
      ∨ (lowestFree s = none ∧ reclaimable s = some i ∧ t = freeEntry i s) := by
  unfold allocate at h
  split at h
  · rename_i j hj
    simp only [Option.some.injEq, Prod.mk.injEq] at h
    exact Or.inl ⟨h.1 ▸ hj, h.2.symm⟩
  · rename_i hj
    simp only [Option.map_eq_some_iff, Prod.mk.injEq] at h
    obtain ⟨j, hr, rfl, rfl⟩ := h
    exact Or.inr ⟨hj, hr, rfl⟩

/-- What completing a command does: the command in hand becomes its result (R163). -/
theorem finish_executing {s : State} {c : CommandRecord} (st : Status) (d : List Byte)
    (h : s.host.engine = .executing c) :
    finish st d s = { s with host.engine := .done ⟨c.tag, st, d⟩ } := by
  simp [finish, h]

/-- A completion report changes nothing, starts one context's probe timer, or completes a command that
waits for its notice (R131). -/
theorem reportTo_cases (o : NoticeOutcome) (w : Waiter) (s : State) :
    reportTo o w s = s
      ∨ (∃ c token x n, w = .context c token ∧ context s c = some x
          ∧ x.stage = .checking n (.awaiting token)
          ∧ reportTo o w s = setContext c (some { x with
              stage := .checking n (.running (timerEnd s.phase.params.probeTimeout s)) }) s)
      ∨ ∃ r i g, w = .engine ∧ s.host.engine = .executing r ∧ r.work = .notice i g
          ∧ reportTo o w s = finish .ok (noticeData i g o) s := by
  cases w with
  | context c token =>
    cases hx : s.join.contexts[c] with
    | none => left; simp only [reportTo, hx]
    | some x =>
      cases hs : x.stage with
      | collecting d => left; simp only [reportTo, hx, hs]
      | offered f => left; simp only [reportTo, hx, hs]
      | checking n t =>
        cases t with
        | running d => left; simp only [reportTo, hx, hs]
        | awaiting a =>
          by_cases ha : a = token
          · subst ha
            right; left
            refine ⟨c, a, x, n, rfl, hx, hs, ?_⟩
            simp only [reportTo, hx, hs, if_true, setContext]
          · left; simp only [reportTo, hx, hs, if_neg ha]
  | engine =>
    cases he : s.host.engine with
    | idle => left; simp only [reportTo, he]
    | done r => left; simp only [reportTo, he]
    | executing r =>
      cases hw : r.work with
      | notice i g =>
        right; right
        exact ⟨r, i, g, rfl, rfl, hw, by simp only [reportTo, he, hw]⟩
      | atOnce => left; simp only [reportTo, he, hw]
      | attemptEnd => left; simp only [reportTo, he, hw]
      | walk => left; simp only [reportTo, he, hw]

/-- What handing a message over does (R125, R126): refused in OFFLINE, head of an empty queue, merged,
dropped at a full queue, or added at the back. -/
theorem handOver_cases (d : Nat) (a : Answer) (ws : List Waiter) (s : State) :
    (s.phase.phase = .offline ∧ handOver d a ws s = reportAll .dropped ws s)
      ∨ (s.phase.phase ≠ .offline ∧ s.port.queue = []
          ∧ handOver d a ws s =
            takeUp { s with port.queue := [newMessage d a ws s] })
      ∨ (∃ m q q', s.phase.phase ≠ .offline ∧ s.port.queue = m :: q
          ∧ mergeInto d a ws q = some q'
          ∧ handOver d a ws s = { s with port.queue := m :: q' })
      ∨ (∃ m q, s.phase.phase ≠ .offline ∧ s.port.queue = m :: q ∧ mergeInto d a ws q = none
          ∧ Config.queueMessages ≤ q.length + 1
          ∧ handOver d a ws s =
            reportAll .dropped ws (setPart partQueueDrop (count .answerDrops s)))
      ∨ ∃ m q, s.phase.phase ≠ .offline ∧ s.port.queue = m :: q ∧ mergeInto d a ws q = none
          ∧ q.length + 1 < Config.queueMessages
          ∧ handOver d a ws s =
            { s with port.queue := m :: q ++ [newMessage d a ws s] } := by
  by_cases hp : s.phase.phase = .offline
  · exact Or.inl ⟨hp, by simp [handOver, hp]⟩
  · right
    cases hq : s.port.queue with
    | nil => exact Or.inl ⟨hp, rfl, by simp [handOver, hp, hq]⟩
    | cons m q =>
      right
      cases hm : mergeInto d a ws q with
      | some q' => exact Or.inl ⟨m, q, q', hp, rfl, hm, by simp [handOver, hp, hq, hm]⟩
      | none =>
        right
        by_cases hl : Config.queueMessages ≤ q.length + 1
        · exact Or.inl ⟨m, q, hp, rfl, hm, hl, by simp [handOver, hp, hq, hm, hl]⟩
        · exact Or.inr ⟨m, q, hp, rfl, hm, by omega, by simp [handOver, hp, hq, hm, hl]⟩

/-- What a transaction at its code byte does (R161): nothing while the port waits, and otherwise its
own effect. -/
theorem takeTransaction_cases (own : State → State) (s : State) :
    (s.host.transaction = .abandoned ∧ takeTransaction own s = s)
      ∨ (s.host.transaction ≠ .abandoned ∧ takeTransaction own s = own s) := by
  unfold takeTransaction portWaits
  by_cases h : s.host.transaction = .abandoned
  · exact Or.inl ⟨h, by simp [h]⟩
  · exact Or.inr ⟨h, by simp [h]⟩

/-- What taking a COMMAND does (R161, R163): not taken by a port that waits, refused, malformed, or
handed to its owner. -/
theorem takeCommand_cases (code : Byte) (suits : Nat → Bool) (f : CommandFrame)
    (body : List Byte → State → State) (s : State) :
    (s.host.transaction = .abandoned
        ∧ takeCommand code suits f body s = { s with host.transaction := .none })
      ∨ (∃ c, s.host.transaction ≠ .abandoned ∧ s.host.engine = .executing c
        ∧ takeCommand code suits f body s =
          { s with host.rejected := true, host.transaction := .none })
      ∨ (s.host.transaction ≠ .abandoned ∧ (∀ c, s.host.engine ≠ .executing c)
          ∧ malformed code suits f = true
          ∧ takeCommand code suits f body s = finish .malformed [] (accept f s))
      ∨ (s.host.transaction ≠ .abandoned ∧ (∀ c, s.host.engine ≠ .executing c)
          ∧ malformed code suits f = false
          ∧ takeCommand code suits f body s = body f.params (accept f s)) := by
  unfold takeCommand portWaits
  by_cases hw : s.host.transaction = .abandoned
  · exact Or.inl ⟨hw, by simp [hw]⟩
  right
  simp only [hw, beq_iff_eq, if_false]
  split
  · rename_i c h; exact Or.inl ⟨c, hw, h, rfl⟩
  all_goals
    rename_i h
    right
    have hn : ∀ c, s.host.engine ≠ .executing c := by simp [h]
    by_cases hm : malformed code suits f = true
    · exact Or.inl ⟨hw, hn, hm, by rw [if_pos hm]⟩
    · exact Or.inr ⟨hw, hn, by simpa using hm, by rw [if_neg hm]⟩

/-- What dispatching does (R124): nothing, or the front request leaves as its owner takes it. -/
theorem dispatch_cases (k : ReqKind) (owner : Request → State → State) (s : State) :
    (dispatch k owner s = s ∧ ∀ r rest, s.port.inbound = r :: rest → r.kind ≠ k)
      ∨ ∃ r rest, s.port.inbound = r :: rest ∧ r.kind = k
          ∧ dispatch k owner s = owner r { s with port.inbound := rest } := by
  unfold dispatch
  split
  · rename_i h; exact Or.inl ⟨rfl, by simp [h]⟩
  · rename_i r rest h
    by_cases hk : r.kind = k
    · exact Or.inr ⟨r, rest, h, hk, by simp [hk]⟩
    · exact Or.inl ⟨by simp [hk], by simp [h, hk]⟩

/-- What closing a context does (R63). -/
theorem closeContext_cases (c : CtxNum) (s : State) :
    (context s c = none ∧ closeContext c s = s)
      ∨ (∃ x, context s c = some x ∧ (∀ o, x.stage ≠ .offered o)
          ∧ closeContext c s = setContext c none s)
      ∨ ∃ x o, context s c = some x ∧ x.stage = .offered o
          ∧ closeContext c s = setContext c none (withdraw o.entry s) := by
  unfold closeContext
  split
  · rename_i h; exact Or.inl ⟨h, rfl⟩
  · rename_i x h
    right
    split
    · rename_i o ho; exact Or.inr ⟨x, o, h, ho, rfl⟩
    · rename_i d hd; exact Or.inl ⟨x, h, by simp [hd], rfl⟩
    · rename_i n t hd; exact Or.inl ⟨x, h, by simp [hd], rfl⟩

/-- What the arbiter does (R109): nothing, or it starts one walk. -/
theorem arbitrate_cases (s : State) :
    arbitrate s = s
      ∨ (∃ r rest, s.lookup.walk = none ∧ s.lookup.busWaiting = r :: rest
          ∧ arbitrate s = startBus r rest s)
      ∨ ∃ h, s.lookup.walk = none ∧ s.lookup.hostSlot = some h ∧ arbitrate s = startHost h s := by
  unfold arbitrate
  split
  · exact Or.inl rfl
  · rename_i hw
    split
    · exact Or.inl rfl
    · rename_i r rest hb hh; exact Or.inr (Or.inl ⟨r, rest, hw, hb, rfl⟩)
    · rename_i h hb hh; exact Or.inr (Or.inr ⟨h, hw, hh, rfl⟩)
    · rename_i r rest h hb hh
      split
      · exact Or.inr (Or.inr ⟨h, hw, hh, rfl⟩)
      · exact Or.inr (Or.inl ⟨r, rest, hw, hb, rfl⟩)

end Sys2Proof.Machine
end

