-- ==== Sys2Proof/Laws/Cases.lean ====
section
/-! SUPPORT. What the searches of the table and the contexts find, and what the operations on entries,
probes and the queue's head can do. -/

namespace Sys2Proof.Machine

/-! ### Searches -/

/-- A search from index 0 up finds the lowest index that has the property. -/
theorem find_lowest {n : Nat} {p : Fin n → Bool} {i : Fin n} (h : Lowest (fun j => p j = true) i) :
    (List.finRange n).find? p = some i := by
  obtain ⟨h1, h2⟩ := h
  obtain ⟨j, hj⟩ := Option.isSome_iff_exists.1
    (List.find?_isSome.2 ⟨i, List.mem_finRange i, h1⟩ : ((List.finRange n).find? p).isSome)
  rw [hj]
  obtain ⟨hp, k, hk, rfl, hlt⟩ := List.find?_eq_some_iff_getElem.1 hj
  simp only [List.getElem_finRange] at hp hlt ⊢
  simp only [List.length_finRange] at hk
  congr 1
  rcases lt_trichotomy k i.val with h | h | h
  · exact absurd hp (h2 ⟨k, hk⟩ h)
  · exact Fin.ext h
  · have := hlt i.val h
    simp [h1] at this

/-- A search that finds an index finds the lowest. -/
theorem lowest_of_find {n : Nat} {p : Fin n → Bool} {i : Fin n}
    (h : (List.finRange n).find? p = some i) : Lowest (fun j => p j = true) i := by
  refine ⟨List.find?_some h, fun j hj hp => ?_⟩
  obtain ⟨_, k, hk, rfl, hlt⟩ := List.find?_eq_some_iff_getElem.1 h
  simp only [List.getElem_finRange] at hj hlt
  have := hlt j.val hj
  simp [hp] at this

/-- The lowest FREE entry (R17). -/
theorem lowestFree_eq {s : State} {i : Index} :
    lowestFree s = some i ↔ Lowest (fun j => (entry s j).state = .free) i := by
  constructor
  · intro h; simpa using lowest_of_find h
  · intro h; exact find_lowest (by simpa using h)

/-- The address map finds no entry for an address that none holds (R14). -/
theorem entryAt_unheld {s : State} {a : Nat} (h : AddressUnheld s a) : entryAt s a = none := by
  unfold entryAt
  rw [List.find?_eq_none]
  intro i _ hi
  simp only [Bool.and_eq_true, beq_iff_eq] at hi
  exact h i hi.1 hi.2

/-- The address map finds the entry that holds an address (R14). -/
theorem entryAt_holds {s : State} {i : Index} {a : Nat} (h : HoldsAddress s i a) :
    entryAt s a = some i := by
  obtain ⟨h1, h2, h3⟩ := h
  refine find_lowest ⟨by simp [h1, h2], fun j hj hh => ?_⟩
  simp only [Bool.and_eq_true, beq_iff_eq] at hh
  exact absurd (h3 j hh.1 hh.2) (ne_of_lt hj)

/-- What the address map finds is occupied and holds the address. -/
theorem entryAt_some {s : State} {i : Index} {a : Nat} (h : entryAt s a = some i) :
    (entry s i).occupied = true ∧ (entry s i).address = some a := by
  simpa using List.find?_some h

/-- No entry is found for an identity that none holds (R15). -/
theorem entryOf_unheld {s : State} {x : Identity} (h : IdentityUnheld s x) : entryOf s x = none := by
  unfold entryOf
  rw [List.find?_eq_none]
  intro i _ hi
  simp only [Bool.and_eq_true, beq_iff_eq] at hi
  exact h i hi.1 hi.2

/-- The search for an identity fails exactly where no entry holds it (R15). -/
theorem entryOf_none {s : State} {x : Identity} : entryOf s x = none ↔ IdentityUnheld s x := by
  refine ⟨fun h i h1 h2 => ?_, entryOf_unheld⟩
  unfold entryOf at h
  rw [List.find?_eq_none] at h
  exact h i (List.mem_finRange i) (by simp [h1, h2])

/-- The entry that holds an identity is found for it (R15). -/
theorem entryOf_holds {s : State} {i : Index} {x : Identity} (h : HoldsIdentity s i x) :
    entryOf s x = some i := by
  obtain ⟨h1, h2, h3⟩ := h
  refine find_lowest ⟨by simp [h1, h2], fun j hj hh => ?_⟩
  simp only [Bool.and_eq_true, beq_iff_eq] at hh
  exact absurd (h3 j hh.1 hh.2) (ne_of_lt hj)

/-- The entry found for an identity is occupied and holds it. -/
theorem entryOf_some {s : State} {i : Index} {x : Identity} (h : entryOf s x = some i) :
    (entry s i).occupied = true ∧ (entry s i).identity = some x := by
  simpa using List.find?_some h

/-- No context is found for an identity that none holds (R61). -/
theorem contextOf_none {s : State} {x : Identity} (h : NoContext s x) : contextOf s x = none := by
  unfold contextOf
  rw [List.find?_eq_none]
  intro c _
  cases hc : context s c with
  | none => simp
  | some e => simpa using h c e hc

/-- The only context of an identity is found for it (R61). -/
theorem contextOf_only {s : State} {c : CtxNum} {x : Exchange} (h : context s c = some x)
    (hu : ∀ c' y, context s c' = some y → y.identity = x.identity → c' = c) :
    contextOf s x.identity = some c := by
  refine find_lowest ⟨by simp [h], fun j hj hh => ?_⟩
  cases hc : context s j with
  | none => simp [hc] at hh
  | some e => simp [hc] at hh; exact absurd (hu j e hc hh) (ne_of_lt hj)

/-- The context found for an identity holds it. -/
theorem contextOf_some {s : State} {c : CtxNum} {x : Identity} (h : contextOf s x = some c) :
    ∃ e, context s c = some e ∧ e.identity = x := by
  have := List.find?_some h
  cases hc : context s c with
  | none => simp [hc] at this
  | some e => exact ⟨e, rfl, by simpa [hc] using this⟩

/-- The lowest IDLE context (R61). -/
theorem lowestIdle_eq {s : State} {c : CtxNum} :
    lowestIdle s = some c ↔ Lowest (fun d => context s d = none) c := by
  constructor
  · intro h; simpa using lowest_of_find h
  · intro h; exact find_lowest (by simpa using h)

/-- No probe is found against an entry that none runs against (R97). -/
theorem probing_none {s : State} {i : Index} (h : Unprobed s i) : probing s i = none := by
  unfold probing
  rw [List.find?_eq_none]
  intro c _ hc
  cases hx : context s c with
  | none => simp [hx] at hc
  | some x => simp [hx] at hc; exact h c x hx hc.1 hc.2

/-- The context found to probe an entry is CHECKING with that entry as its target (R97). -/
theorem probing_some {s : State} {i : Index} {c : CtxNum} (h : probing s i = some c) :
    ∃ x, context s c = some x ∧ x.checking = true ∧ x.target = some i := by
  have := List.find?_some h
  cases hc : context s c with
  | none => simp [hc] at this
  | some e => simp [hc] at this; exact ⟨e, rfl, this.1, this.2⟩

/-- An entry without a probe sees no outcome GONE (R102). -/
theorem probeGone_unprobed {s : State} {i : Index} (h : Unprobed s i) : probeGone i s = s := by
  unfold probeGone; rw [probing_none h]

/-! ### Entries and contexts after an update -/

/-- The entries after a change request: the one named, and every other as it was (R8). -/
theorem entry_changeEntry (i j : Index) (new : Entry) (causes : CauseSet) (s : State) :
    entry (changeEntry i new causes s) j =
      if j = i then { new with generation := nextGeneration (entry s i) new } else entry s j := by
  by_cases h : j = i
  · subst h; simp [entry, changeEntry]
  · have : i.val ≠ j.val := fun k => h (Fin.ext k.symm)
    simp [entry, changeEntry, h, this]

/-- The contexts after one of them is set. -/
theorem context_setContext (c d : CtxNum) (x : Option Exchange) (s : State) :
    context (setContext c x s) d = if d = c then x else context s d := by
  by_cases h : d = c
  · subst h; simp [context, setContext]
  · have : c.val ≠ d.val := fun k => h (Fin.ext k.symm)
    simp [context, setContext, h, this]

/-! ### Taking a command -/

/-- A well-formed COMMAND of a ready engine is handed to its owner (R163). -/
theorem takeCommand_taken {code : Byte} {suits : Nat → Bool} {f : CommandFrame}
    {body : List Byte → State → State} {s : State} (h : Ready s) (hf : Framed code f)
    (hl : suits f.params.length = true) (h48 : f.params.length ≤ 48) :
    takeCommand code suits f body s = body f.params (accept f s) := by
  obtain ⟨h1, h2⟩ := hf
  have hm : malformed code suits f = false := by
    simp only [malformed, h1, h2, hl]
    simp
    omega
  rcases takeCommand_cases code suits f body s with
    ⟨hw, _⟩ | ⟨c, _, hc, _⟩ | ⟨_, _, hb, _⟩ | ⟨_, _, _, ht⟩
  · exact absurd hw h.1
  · exact absurd hc (h.2 c)
  · rw [hm] at hb; cases hb
  · exact ht

/-- A command taken and completed at once changes the host port alone (R163). -/
theorem finish_accept (f : CommandFrame) (st : Status) (d : List Byte) (s : State) :
    finish st d (accept f s) = completed f st d s s := by
  simp [finish, accept, completed, hostAfter]

/-! ### What the operations can do -/

/-- The end of a binding with a hold: HELD, or FREE when hold ticks is 0 (R12). -/
theorem holdEntry_cases (cause : HeldCause) (i : Index) (s : State) :
    (s.phase.params.hold = 0 ∧ holdEntry cause i s = freeEntry i s)
      ∨ (s.phase.params.hold ≠ 0 ∧ holdEntry cause i s =
          changeEntry i
            { entry s i with
              state := .held, heldCause := some cause, remaining := some s.phase.params.hold,
              dispute := Dispute.empty } causeState s) := by
  unfold holdEntry
  split
  · rename_i h; exact Or.inl ⟨h, rfl⟩
  · rename_i h; exact Or.inr ⟨h, rfl⟩

/-- The collision reason is added, counted, or nothing happens (R88, R104). -/
theorem addCollision_cases (i : Index) (s : State) :
    addCollision i s = s
      ∨ ((entry s i).live = true ∧ (entry s i).dispute.collision = false
          ∧ addCollision i s = count .collisions (changeEntry i
              { entry s i with dispute := { (entry s i).dispute with collision := true } }
              causeDispute s)) := by
  unfold addCollision
  cases hc : (entry s i).dispute.collision <;> cases hl : (entry s i).live <;> simp [hc, hl]

/-- The duplicate reason is added, or nothing happens (R100, R104). -/
theorem addDuplicate_cases (i : Index) (s : State) :
    addDuplicate i s = s
      ∨ ((entry s i).live = true ∧ (entry s i).dispute.duplicate = false
          ∧ addDuplicate i s = changeEntry i
              { entry s i with dispute := { (entry s i).dispute with duplicate := true } }
              causeDispute s) := by
  unfold addDuplicate
  cases hc : (entry s i).dispute.duplicate <;> cases hl : (entry s i).live <;> simp [hc, hl]

/-- An offer is withdrawn while its entry is RESERVED, and otherwise nothing happens (R13). -/
theorem withdraw_cases (i : Index) (s : State) :
    ((entry s i).state = .reserved ∧ withdraw i s = freeEntry i s)
      ∨ ((entry s i).state ≠ .reserved ∧ withdraw i s = s) := by
  unfold withdraw
  split
  · rename_i h; exact Or.inl ⟨h, rfl⟩
  · rename_i h; exact Or.inr ⟨h, rfl⟩

/-- What promotion leaves in the queue: a part of it from its back, whose head is taken up, or nothing,
with the transmitter IDLE (R127). -/
theorem promote_queue (q : List QueuedMessage) (s : State) :
    ((promote q s).port.queue = [] ∧ (promote q s).port.tx = .idle)
      ∨ ∃ m rest, m :: rest <:+ q ∧ (promote q s).port.queue = m :: rest
          ∧ ∃ t, t.port.queue = m :: rest ∧ promote q s = takeUp t := by
  induction q generalizing s with
  | nil => exact Or.inl ⟨rfl, rfl⟩
  | cons m rest ih =>
    unfold promote
    split
    · rcases ih (reportAll .dropped m.waiters (count .answerDrops s)) with h | ⟨n, r, hs, h⟩
      · exact Or.inl h
      · exact Or.inr ⟨n, r, hs.trans (List.suffix_cons m rest), h⟩
    · exact Or.inr ⟨m, rest, List.suffix_refl _, by simp, _, rfl, rfl⟩

/-- What an expiry event does (R26 to R30): nothing, one count-down taken without an expiry, or the
expiry of the entry's state at 1 remaining. -/
theorem expiryEvent_cases (own : Entry → Bool) (expire : Index → State → State) (i : Index)
    (s : State) :
    expiryEvent own expire i s = s
      ∨ (s.lease.owed[i] ≠ 0 ∧ (entry s i).timed = false
          ∧ expiryEvent own expire i s = takeOwed i s)
      ∨ (s.lease.owed[i] ≠ 0 ∧ (entry s i).timed = true ∧ 1 < orZero (entry s i).remaining
          ∧ expiryEvent own expire i s = lowerRemaining i (takeOwed i s))
      ∨ (s.lease.owed[i] ≠ 0 ∧ (entry s i).timed = true ∧ orZero (entry s i).remaining ≤ 1
          ∧ own (entry s i) = true ∧ expiryEvent own expire i s = expire i (takeOwed i s)) := by
  unfold expiryEvent
  by_cases h0 : s.lease.owed[i] = 0
  · exact Or.inl (by simp only [h0, if_true])
  · simp only [h0, if_false]
    cases ht : (entry s i).timed with
    | false => exact Or.inr (Or.inl ⟨h0, rfl, by simp⟩)
    | true =>
      by_cases h1 : 1 < orZero (entry s i).remaining
      · exact Or.inr (Or.inr (Or.inl ⟨h0, rfl, h1, by simp [h1]⟩))
      · cases ho : own (entry s i) with
        | true => exact Or.inr (Or.inr (Or.inr ⟨h0, rfl, Nat.not_lt.1 h1, rfl, by simp [h1]⟩))
        | false => exact Or.inl (by simp [h1])

/-- What resolution does from step 2 on (R77 to R79): nothing for an IDLE context, a refusal that
reserves nothing, or an offer of an entry that is its target or was allocated. -/
theorem resolveTerms_cases (c : CtxNum) (s : State) :
    (context s c = none ∧ resolveTerms c s = s)
      ∨ (∃ r, (r = .noClass ∨ r = .noAddress ∨ r = .retry)
          ∧ resolveTerms c s = closeRefused c .join r s)
      ∨ resolveTerms c s = closeRefused c .join .tableFull (setPart partTableFull s)
      ∨ ∃ x cls a i t, context s c = some x
          ∧ chosenClass s.phase.params { x with target := settledTarget s x } = some cls
          ∧ chosenAddress s (settledTarget s x) x.hint = some a
          ∧ joinEntry s (settledTarget s x) = some (i, t)
          ∧ (addressHeldByOther t a i || identityHeldByOther t x.identity i) = false
          ∧ resolveTerms c s =
            reserveAndOffer c { x with target := settledTarget s x } i a cls
              (chosenWindow s.phase.params x cls)
              (clampLease s.phase.params x.requestedLease x.leaseCap) t := by
  unfold resolveTerms
  cases hx : context s c with
  | none => exact Or.inl ⟨rfl, rfl⟩
  | some x =>
    right
    cases hc : chosenClass s.phase.params { x with target := settledTarget s x } with
    | none => exact Or.inl ⟨.noClass, Or.inl rfl, by simp only [hc]⟩
    | some cls =>
      cases ha : chosenAddress s (settledTarget s x) x.hint with
      | none => exact Or.inl ⟨.noAddress, Or.inr (Or.inl rfl), by simp only [hc, ha]⟩
      | some a =>
        cases hj : joinEntry s (settledTarget s x) with
        | none => exact Or.inr (Or.inl (by simp only [hc, ha, hj]))
        | some it =>
          obtain ⟨i, t⟩ := it
          cases hh : (addressHeldByOther t a i || identityHeldByOther t x.identity i) with
          | true =>
            exact Or.inl ⟨.retry, Or.inr (Or.inr rfl), by simp only [hc, ha, hj, hh, if_true]⟩
          | false =>
            refine Or.inr (Or.inr ⟨x, cls, a, i, t, rfl, hc, ha, hj, hh, ?_⟩)
            simp only [hc, ha, hj, hh]
            rfl

/-- What recording a supersession does (R103): the holder of a live binding whose entry is RESERVED
afterwards is noted there, and otherwise nothing happens. -/
theorem noteSuperseded_cases (i : Index) (s t : State) :
    noteSuperseded i s t = t
      ∨ ∃ holder, (entry s i).incarnation = some holder ∧ (entry s i).live = true
          ∧ (entry t i).state = .reserved
          ∧ noteSuperseded i s t =
            withEntry i { entry t i with superseded := some ⟨holder, false⟩ } t := by
  unfold noteSuperseded
  cases hh : (entry s i).incarnation with
  | none => exact Or.inl rfl
  | some holder =>
    by_cases h : (entry s i).live = true ∧ (entry t i).state = .reserved
    · exact Or.inr ⟨holder, rfl, h.1, h.2, by simp only [if_pos h]; rfl⟩
    · exact Or.inl (by simp only [if_neg h])

/-- A holder's record, late or not, by its incarnation. -/
theorem superseded_holder {r : Option Superseded} {holder : Word16} :
    r.map Superseded.holder = some holder ↔ ∃ late, r = some ⟨holder, late⟩ := by
  rcases r with _ | ⟨h, l⟩ <;> simp

/-- The KEEP of a late holder, in the terms of claims (R103). -/
theorem fromLateHolder_iff {i : Index} {k : KeepFields} {s : State}
    (h : (entry s i).identity = some k.identity) :
    fromLateHolder i k s = true ↔ LostBy s i k.identity k.incarnation true := by
  simp [fromLateHolder, LostBy, h]

/-- What is forgotten as a holder's next KEEP is taken, in the terms of claims (R103). -/
theorem forgetLoss_eq (k : KeepFields) (s : State) :
    forgetLoss k s = keepMet k.identity k.incarnation s := by
  have h : Entry.forgetting k.identity k.incarnation
      = fun e => if decide (e.identity = some k.identity
          ∧ ∃ late, e.superseded = some ⟨k.incarnation, late⟩) = true
        then { e with superseded := none } else e := by
    funext e
    simp only [Entry.forgetting, superseded_holder, decide_eq_true_eq]
  unfold forgetLoss keepMet
  rw [h]

/-- A KEEP that is taken leaves of every entry all but the record of its holder's loss (R103). -/
theorem entry_forgetLoss (k : KeepFields) (s : State) (i : Index) :
    entry (forgetLoss k s) i = Entry.forgetting k.identity k.incarnation (entry s i) := by
  simp [entry, forgetLoss]

/-- Everything that a REPLY under no probe can record: the holder's answer was late (R103). -/
theorem noteLateReply_cases (i : Index) (p : List Byte) (s : State) :
    (noteLateReply i p s = s ∧ ∀ late, ¬ LostBy s i (payloadIdentity p) (word16At p 8) late)
      ∨ ∃ late, LostBy s i (payloadIdentity p) (word16At p 8) late
          ∧ noteLateReply i p s =
            withEntry i { entry s i with superseded := some ⟨word16At p 8, true⟩ } s := by
  unfold noteLateReply
  simp only [superseded_holder]
  split
  next h =>
    obtain ⟨hx, late, hl⟩ := h
    exact Or.inr ⟨late, ⟨hx, hl⟩, rfl⟩
  next h => exact Or.inl ⟨rfl, fun late hl => h ⟨hl.1, late, hl.2⟩⟩

/-! ### The terms of claims -/

/-- A change request in the terms of claims: the entry with its generation, and the causes (R8). -/
theorem changeEntry_eq (i : Index) (new : Entry) (causes : CauseSet) (s : State) :
    changeEntry i new causes s =
      withCauses i causes
        (withEntry i { new with generation := nextGeneration (entry s i) new } s) := rfl

/-- A change of a tracked field advances the generation (R6). -/
theorem nextGeneration_changed {old new : Entry} (h : old.tracked ≠ new.tracked) :
    nextGeneration old new = old.generation + 1 := by
  unfold nextGeneration; rw [if_neg h]

/-- A change of state advances the generation (R6). -/
theorem nextGeneration_state {old new : Entry} (h : old.state ≠ new.state) :
    nextGeneration old new = old.generation + 1 :=
  nextGeneration_changed fun ht => h (congrArg (fun e : Entry => e.state) ht :)

/-- A live entry is in none of the other states (R2). -/
theorem live_states {e : Entry} (h : e.live = true) :
    e.state ≠ .free ∧ e.state ≠ .held ∧ e.state ≠ .reserved := by
  simp only [Entry.live, Bool.or_eq_true, beq_iff_eq] at h
  rcases h with h | h <;> simp [h]

/-- Freeing an occupied entry releases it (R13). -/
theorem freeEntry_released {i : Index} {s : State} (h : (entry s i).state ≠ .free) :
    freeEntry i s = released i s := by
  unfold freeEntry
  rw [changeEntry_eq, nextGeneration_state (by exact h)]
  rfl

/-- The end of a binding that is neither FREE nor HELD: with a hold, or released when hold ticks is 0
(R12). -/
theorem holdEntry_eq {cause : HeldCause} {i : Index} {s : State} (h1 : (entry s i).state ≠ .free)
    (h2 : (entry s i).state ≠ .held) :
    holdEntry cause i s =
      if s.phase.params.hold = 0 then released i s else heldBy cause i s := by
  rcases holdEntry_cases cause i s with ⟨h, hs⟩ | ⟨h, hs⟩
  · rw [hs, if_pos h, freeEntry_released h1]
  · rw [hs, if_neg h, changeEntry_eq, nextGeneration_state (by exact h2)]
    rfl

/-- The collision reason at a live entry: added and counted, or already there (R88, R104). -/
theorem addCollision_eq {i : Index} {s : State} (h : (entry s i).live = true) :
    addCollision i s = if (entry s i).dispute.collision then s else collided i s := by
  unfold addCollision
  cases hc : (entry s i).dispute.collision with
  | true => simp [hc]
  | false =>
    simp only [h, hc, Bool.not_true, Bool.or_self, Bool.false_eq_true, if_false]
    rw [changeEntry_eq, nextGeneration_changed]
    · rfl
    · intro ht
      have := congrArg (fun e => e.dispute.collision) ht
      simp [Entry.tracked, hc] at this

/-- Learning an address does what the terms of claims say (R87, R92). -/
theorem learn_eq {a : Nat} {s t : State} (h : LearnedFrom a s t) : learnIfOn a s = t := by
  rcases h with ⟨h1, rfl⟩ | ⟨h1, ⟨i, h2, rfl⟩ | ⟨h2, rfl⟩⟩
  · simp [learnIfOn, h1]
  · simp only [learnIfOn, h1, if_true, learn, lowestFree_eq.2 h2]
    rw [changeEntry_eq, nextGeneration_state (by simp [legacyEntry, h2.1])]
    rfl
  · have : lowestFree s = none := by
      unfold lowestFree; rw [List.find?_eq_none]; intro i _; simpa using h2 i
    simp only [learnIfOn, h1, if_true, learn, this]

/-- The one context that probes an entry is found for it (R97). -/
theorem probing_only {s : State} {i : Index} {c : CtxNum} (h : ProbedBy s i c) :
    probing s i = some c := by
  obtain ⟨⟨x, h1, h2, h3⟩, hu⟩ := h
  refine find_lowest ⟨by simp [h1, h2, h3], fun j hj hh => ?_⟩
  cases hc : context s j with
  | none => simp [hc] at hh
  | some e => simp [hc] at hh; exact absurd (hu j e hc hh.1 hh.2) (ne_of_lt hj)

/-- What the outcome GONE does after an event that touches no context (R101, R102). -/
theorem probeGone_eq {s t : State} {i : Index} {after : State → State} (h : GoneThen s i after)
    (hj : t.join = s.join) : probeGone i t = after t := by
  have hp : probing t i = probing s i := by simp [probing, context, hj]
  rcases h with ⟨h, rfl⟩ | ⟨c, h, rfl⟩
  · simp [probeGone, hp, probing_none h]
  · simp [probeGone, hp, probing_only h]

/-- An increment touches the change unit alone (R154). -/
theorem count_eq (k : Counter) (s : State) : count k s = { s with change := (count k s).change } := by
  unfold count
  dsimp only
  split <;> first | rfl | (split <;> rfl)

/-! ### Producing an answer that has no waiter -/

/-- An answer without a waiter changes the answer queue and the change unit alone (R125, R126). -/
theorem send_eq (d : Nat) (a : Answer) (s : State) :
    send d a s = { s with port := (send d a s).port, change := (send d a s).change } := by
  unfold send
  rcases handOver_cases d a [] s with ⟨_, h⟩ | ⟨_, _, h⟩ | ⟨_, _, _, _, _, _, h⟩
    | ⟨_, _, _, _, _, _, h⟩ | ⟨_, _, _, _, _, _, h⟩ <;> rw [h]
  · rfl
  · unfold takeUp; split <;> rfl
  · simp only [reportAll, List.foldl_nil]
    rw [count_eq]; rfl

@[simp] theorem send_join (d : Nat) (a : Answer) (s : State) : (send d a s).join = s.join := by
  rw [send_eq]

@[simp] theorem send_host (d : Nat) (a : Answer) (s : State) : (send d a s).host = s.host := by
  rw [send_eq]

/-- A REFUSE is its answer, sent and counted. -/
theorem refuse_eq (d : Nat) (x : Identity) (k : ReqKind) (r : Reason) (s : State) :
    refuse d x k r s = send d (.refuse x k r) (count .refusals s) := rfl

/-- Closing a context does what the terms of claims say, after an event that has touched neither table
nor contexts (R63). -/
theorem closeContext_holds {s t : State} {c : CtxNum} {x : Exchange} (h : HoldsContext s c x)
    (ht : t.table = s.table) (hj : t.join = s.join) : closeContext c t = contextClosed c x t := by
  obtain ⟨h1, _, h3⟩ := h
  have hx : context t c = some x := by simp [context, hj]; exact h1
  unfold closeContext contextClosed
  rw [hx]
  simp only []
  cases hs : x.stage with
  | collecting d => rfl
  | checking n d => rfl
  | offered o =>
    have hr : (entry t o.entry).state = .reserved := by simp only [entry, ht]; exact h3 o hs
    simp only [withdraw]
    rw [if_pos hr, freeEntry_released (by rw [hr]; decide)]
    rfl

/-- A context is closed with a REFUSE of its identity, counted (R63). -/
theorem closeRefused_holds {s t : State} {c : CtxNum} {x : Exchange} (k : ReqKind) (r : Reason)
    (h : HoldsContext s c x) (ht : t.table = s.table) (hj : t.join = s.join) :
    closeRefused c k r t =
      send 254 (.refuse x.identity k r) (count .refusals (contextClosed c x t)) := by
  have hx : context t c = some x := by simp [context, hj]; exact h.1
  unfold closeRefused
  rw [hx]
  simp only []
  rw [closeContext_holds h ht hj]
  rfl

/-- The context that holds an identity is found for it (R61). -/
theorem contextOf_holds {s : State} {c : CtxNum} {x : Exchange} (h : HoldsContext s c x) :
    contextOf s x.identity = some c := contextOf_only h.1 h.2.1

/-- A context without an offer is closed with a REFUSE and nothing of the table changes (R63). -/
theorem closeRefused_eq {s : State} {c : CtxNum} {x : Exchange} (k : ReqKind) (r : Reason)
    (hx : context s c = some x) (ho : ∀ o, x.stage ≠ .offered o) :
    closeRefused c k r s =
      send 254 (.refuse x.identity k r)
        (count .refusals { s with join.contexts := s.join.contexts.set c none }) := by
  unfold closeRefused
  rw [hx]
  simp only [refuse]
  congr 2
  rcases closeContext_cases c s with ⟨h, _⟩ | ⟨_, _, _, h⟩ | ⟨y, o, h, hs, _⟩
  · rw [hx] at h; cases h
  · exact h
  · rw [hx] at h; cases h; exact absurd hs (ho o)

end Sys2Proof.Machine
end

