-- ==== Sys2Proof/Tests/Slice0.lean ====
section
/-! SUPPORT. Small tests, and for every statement with hypotheses a state and operands that meet them. -/

namespace Sys2Proof.Tests

open Sys2Proof.Machine

-- The many small theorems are elaborated one after another, which keeps the check's memory low.
set_option Elab.async false

/-! ### Helpers -/

/-- A COMMAND frame whose declared length is that of its parameters. -/
def frame (code : Byte) (params : List Byte) : CommandFrame :=
  ⟨1, code, oneByte params.length, params⟩

/-- The part after reset, in a phase. -/
def inPhase (p : Phase) : State := { State.reset with phase.phase := p }

/-- A station's identity. -/
def someone : Identity := 0x3A0711C0000092F4

/-- A live NEGOTIATED entry at address 7. -/
def bound : Entry :=
  { Entry.freeAt 5 with
    state := .bound, origin := some .negotiated, identity := some someone,
    incarnation := some 9, address := some 7, terms := some ⟨2, 8, [3]⟩, lease := some 100,
    remaining := some 50 }

/-- A STATIC entry at address 7. -/
def fixed : Entry :=
  { Entry.freeAt 5 with
    state := .bound, origin := some .static, identity := some someone, address := some 7,
    terms := some ⟨2, 8, []⟩ }

/-- A LEGACY entry at address 7. -/
def legacy : Entry :=
  { Entry.freeAt 5 with
    state := .bound, origin := some .legacy, address := some 7, remaining := some 1 }

/-- A HELD entry at address 7, left by its station. -/
def held : Entry :=
  { bound with state := .held, heldCause := some .left, remaining := some 1 }

/-- The part in a phase with one entry, entry 0. -/
def withOne (p : Phase) (e : Entry) : State := withEntry 0 e (inPhase p)

/-- The part with a request at the front of its inbound buffer. -/
def asked (s : State) (source : Nat) (k : ReqKind) (payload : List Byte) : State :=
  { s with port.inbound := [⟨source, true, k, payload⟩] }

theorem listening {s : State} (h : s.host.transaction = .none := by rfl) : Listening s := by
  intro hc; rw [h] at hc; cases hc

theorem ready_idle {s : State} (h : s.host.engine = .idle) (h2 : s.host.transaction = .none := by rfl) :
    Ready s := by
  refine ⟨listening h2, fun c hc => ?_⟩
  rw [h] at hc; cases hc

theorem framed {c : Byte} {p : List Byte} (h : p.length < 256) : Framed c (frame c p) := by
  refine ⟨rfl, ?_⟩
  simp only [frame, oneByte, BitVec.toNat_ofNat]
  omega

theorem lowest_first {n : Nat} {p : Fin (n + 1) → Prop} (h : p 0) : Lowest p 0 :=
  ⟨h, fun j hj => absurd hj (Nat.not_lt_zero j.val)⟩

theorem idle_contexts {s : State} (h : s.join = State.reset.join) (c : CtxNum) :
    context s c = none := by
  simp [context, h, State.reset]

theorem unprobed {s : State} (h : s.join = State.reset.join) (i : Index) : Unprobed s i := by
  intro c x hc
  rw [idle_contexts h] at hc
  cases hc

theorem no_context {s : State} (h : s.join = State.reset.join) (x : Identity) : NoContext s x := by
  intro c e hc
  rw [idle_contexts h] at hc
  cases hc

theorem entry_first (p : Phase) (e : Entry) : entry (withOne p e) 0 = e := by
  simp [withOne, withEntry, entry]

theorem entry_other (p : Phase) (e : Entry) {i : Index} (h : i ≠ 0) :
    entry (withOne p e) i = Entry.freeAt 0 := by
  have : (0 : Nat) ≠ i.val := fun c => h (Fin.ext c.symm)
  simp [withOne, withEntry, entry, inPhase, State.reset, this]

theorem address_unheld {e : Entry} {a : Nat} (p : Phase) (h : e.address ≠ some a) :
    AddressUnheld (withOne p e) a := by
  intro i hi
  by_cases h0 : i = 0
  · rw [h0, entry_first]; exact h
  · rw [entry_other p e h0] at hi; cases hi

theorem identity_unheld {e : Entry} {x : Identity} (p : Phase) (h : e.identity ≠ some x) :
    IdentityUnheld (withOne p e) x := by
  intro i hi
  by_cases h0 : i = 0
  · rw [h0, entry_first]; exact h
  · rw [entry_other p e h0] at hi; cases hi

theorem holds_address {e : Entry} {a : Nat} (p : Phase) (ho : e.occupied = true)
    (ha : e.address = some a) : HoldsAddress (withOne p e) 0 a := by
  refine ⟨by rw [entry_first]; exact ho, by rw [entry_first]; exact ha, fun j hj _ => ?_⟩
  by_cases h0 : j = 0
  · exact h0
  · rw [entry_other p e h0] at hj; cases hj

theorem entry_reset (i : Index) : entry State.reset i = Entry.freeAt 0 := by
  simp [entry, State.reset]

theorem address_unheld_reset (a : Nat) : AddressUnheld State.reset a := by
  intro i hi; rw [entry_reset] at hi; cases hi

theorem identity_unheld_reset (x : Identity) : IdentityUnheld State.reset x := by
  intro i hi; rw [entry_reset] at hi; cases hi

theorem holds_identity {e : Entry} {x : Identity} (p : Phase) (ho : e.occupied = true)
    (ha : e.identity = some x) : HoldsIdentity (withOne p e) 0 x := by
  refine ⟨by rw [entry_first]; exact ho, by rw [entry_first]; exact ha, fun j hj _ => ?_⟩
  by_cases h0 : j = 0
  · exact h0
  · rw [entry_other p e h0] at hj; cases hj

/-! ### Formats (expected values from spec/12) -/

theorem test_check_value :
    crc [0x31, 0x32, 0x33, 0x34, 0x35, 0x36, 0x37, 0x38, 0x39] = 0x29B1 := by decide +kernel

/-- The code table of spec/12.3: REVOKE is 0Ch and takes five bytes. -/
theorem test_revoke_row :
    decodeFrame (frame 0x0C [0, 0, 0, 0, 0]) = .revoke (frame 0x0C [0, 0, 0, 0, 0]) := by decide

/-- CONFIRM is 0Dh, and its action byte tells its two rows apart. -/
theorem test_confirm_rows :
    decodeFrame (frame 0x0D [0, 0, 0, 0, 0]) = .confirmKeep (frame 0x0D [0, 0, 0, 0, 0])
      ∧ decodeFrame (frame 0x0D [0, 0, 0, 1, 0]) = .confirmEvict (frame 0x0D [0, 0, 0, 1, 0]) := by
  decide

theorem test_no_word_spells_a_command : decodeTableWord 32 0x12345678 = none := rfl

/-! ### Single values (expected values from the tables of R32, R55, R161, R165 and R166) -/

theorem test_lease_clamp_table :
    [0, 5, 300, 2000].map (fun n => clampLease Params.default n none) = [120, 10, 300, 600]
      ∧ [0, 5, 300, 2000].map (fun n => clampLease Params.default n (some 60))
        = [60, 10, 60, 60] := by
  decide

theorem test_defer_count_stops_at_255 :
    deferHoldoff someone [⟨1, 3⟩, ⟨someone, 255⟩] = [⟨someone, 255⟩, ⟨1, 3⟩]
      ∧ deferHoldoff someone [⟨1, 3⟩] = [⟨someone, 1⟩, ⟨1, 3⟩] := by
  decide

theorem test_status_after_reset : statusWord State.reset = 0 := by decide +kernel

/-- The three bytes of a COMMAND frame before its parameters are its least; filler stands where the port
has nothing to say, and during the code byte; and each byte goes out most significant bit first. -/
theorem test_short_command_discarded :
    decodeTransaction [1, 7, 0x03] = none
      ∧ decodeTransaction [1, 7, 0x03, 0] = some (.enable ⟨7, 0x03, 0, []⟩)
      ∧ hostDataOut State.reset 0 = 0xFF ∧ hostDataOut State.reset 1 = 0xFF
      ∧ (List.range 3).map (hostDataOut { State.reset with host.transaction := .status 0x61 })
          = [0xFF, 0x61, 0xFF]
      ∧ (List.range 8).map
          (fun n => hostBitOut { State.reset with host.transaction := .status 0x61 } (8 + n))
          = [false, true, true, false, false, false, false, true] := by
  decide

/-- A member's group list keeps its order, and a group given twice is refused (R174). -/
theorem test_groups_order : readGroups [2, 9, 3, 0, 0] 0 = some [9, 3]
    ∧ readGroups [2, 3, 3, 0, 0] 0 = none ∧ readGroups [1, 14, 0, 0, 0] 0 = none := by
  decide

/-! ### WellFormed -/

theorem test_frame_of_its_row_accepted : (Instr.enable (frame 0x03 [])).wellFormed = true := by decide

theorem test_frame_of_another_row_refused :
    (Instr.enable (frame 0x04 [])).wellFormed = false := by decide

theorem test_seven_extra_bits_accepted : (Instr.receiveMessage [] 7).wellFormed = true := by decide

theorem test_eight_extra_bits_refused : (Instr.receiveMessage [] 8).wellFormed = false := by decide

/-! ### Witnesses: the engine -/

theorem witness_StepRunsFrontCommand :
    ({ State.reset with pending := [.status] } : State).pending = .status :: [] := rfl

/-- An engine that carries out a LOOKUP. -/
def busy (w : Work) (code : Byte) : State :=
  { inPhase .active with host.engine := .executing ⟨1, code, [], w⟩ }

theorem witness_CommandRefusedWhileExecuting :
    (Instr.enable (frame 0x03 [])).frame? = some (frame 0x03 []) ∧ Listening (busy .walk 0x10)
      ∧ (busy .walk 0x10).host.engine = .executing ⟨1, 0x10, [], .walk⟩ := ⟨rfl, listening, rfl⟩

/-- The port that waits for the release of the transaction that a cold reset abandoned. -/
def waiting : State := { State.reset with host.transaction := .abandoned }

theorem witness_ColdResetClears :
    waiting.host.transaction = .abandoned
      ∧ (Instr.enable (frame 0x03 [])).frame? = some (frame 0x03 [])
      ∧ State.reset.host.transaction = .none ∧ waiting.host.transaction ≠ .none := by
  exact ⟨rfl, rfl, rfl, by decide⟩

theorem witness_MalformedCommandCompletes :
    Ready State.reset
      ∧ (Instr.enable (frame 0x03 [0])).wellFormed = true
      ∧ lengthSuits 0x03 1 = false
      ∧ (Instr.configure (frame 0x30 [])).wellFormed = true
      ∧ lengthSuits 0x30 0 = false
      ∧ (Instr.enable ⟨1, 0x03, 1, []⟩).wellFormed = true
      ∧ (1 : Byte).toNat ≠ ([] : List Byte).length :=
  ⟨ready_idle rfl, by decide, by decide, by decide, by decide, by decide, by decide⟩

/-! ### Witnesses: phases and parameters -/

theorem witness_phase_commands :
    (∀ p, Ready (inPhase p)) ∧ Framed 0x03 (frame 0x03 []) ∧ Framed 0x05 (frame 0x05 [])
      ∧ Framed 0x06 (frame 0x06 []) ∧ Framed 0x16 (frame 0x16 [])
      ∧ (inPhase .offline).phase.params.settle ≠ 0 ∧ (frame 0x03 []).params = [] :=
  ⟨fun _ => ready_idle rfl, framed (by decide), framed (by decide), framed (by decide),
    framed (by decide), by decide, rfl⟩

theorem witness_EnableStartsPart_at_settle_0 :
    Ready { State.reset with phase.params.settle := 0 }
      ∧ ({ State.reset with phase.params.settle := 0 } : State).phase.phase = .offline :=
  ⟨ready_idle rfl, rfl⟩

/-- A CONFIGURE of min lease alone, number 7. -/
def setMinLease (v : Nat) : CommandFrame := frame 0x01 (7 :: beBytes 4 v)

theorem witness_ConfigureAppliesAllOrNone :
    Ready State.reset ∧ Framed 0x01 (setMinLease 700)
      ∧ lengthSuits 0x01 (setMinLease 700).params.length = true
      -- a number that names no parameter, a tick period outside OFFLINE, an inverted pair, and a value
      -- that passes
      ∧ readSettings (frame 0x01 [0x28, 0, 0, 0, 1]).params = [⟨none, 1⟩]
      ∧ readSettings (frame 0x01 [6, 0, 0, 0, 1]).params = [⟨some .tickPeriod, 1⟩]
      ∧ Param.offlineOnly .tickPeriod = true
      ∧ readSettings (setMinLease 700).params = [⟨some .minLease, 700⟩]
      ∧ (applySettings Params.default [⟨some .minLease, 700⟩]).maxLease
          < (applySettings Params.default [⟨some .minLease, 700⟩]).minLease
      ∧ readSettings (setMinLease 600).params = [⟨some .minLease, 600⟩]
      ∧ Param.inRange 600 .minLease = true
      ∧ (applySettings Params.default [⟨some .minLease, 600⟩]).minLease
          ≤ (applySettings Params.default [⟨some .minLease, 600⟩]).maxLease :=
  ⟨ready_idle rfl, framed (by decide), by decide, by decide, by decide, rfl, by decide, by decide,
    by decide, by decide, by decide⟩

/-! ### Witnesses: admission -/

/-- A FILTER-PUT of an ADMIT rule that matches every identity, at a position. -/
def putRule (position verdict : Nat) : CommandFrame :=
  frame 0x07 (oneByte position :: (List.replicate 16 0 ++ [oneByte verdict, 0, 0, 0]))

/-- The part with n such rules. -/
def withRules (n : Nat) : State :=
  { State.reset with admission.filter := List.replicate n ⟨0, 0, .admits, none, none⟩ }

theorem witness_FilterPutInserts :
    (∀ n, Ready (withRules n)) ∧ Framed 0x07 (putRule 23 0) ∧ (putRule 23 0).params.length = 21
      ∧ readRule (putRule 23 0).params = some ⟨0, 0, .admits, none, none⟩
      ∧ readRule (putRule 0 3).params = none
      ∧ readRule (putRule 0 2).params = none
      ∧ (withRules 22).admission.filter.length < (byteAt (putRule 23 0).params 0).toNat
      ∧ (byteAt (putRule 23 0).params 0).toNat ≤ (withRules 23).admission.filter.length
      ∧ (withRules 23).admission.filter.length < 24
      ∧ 24 ≤ (withRules 24).admission.filter.length :=
  ⟨fun _ => ready_idle rfl, framed (by decide), by decide, by decide, by decide, by decide,
    by decide, by decide, by decide, by decide⟩

theorem witness_ListCommands :
    Ready (withRules 1) ∧ Framed 0x08 (frame 0x08 [0]) ∧ Framed 0x09 (frame 0x09 [1])
      ∧ Framed 0x12 (frame 0x12 [0])
      ∧ (0 : Byte).toNat < (withRules 1).admission.filter.length
      ∧ (withRules 1).admission.filter.length ≤ (1 : Byte).toNat
      ∧ (1 : Byte).toNat ≤ (withRules 1).admission.filter.length
      ∧ (withRules 1).admission.filter.length < (2 : Byte).toNat
      ∧ (0 : Byte).toNat ≤ (withRules 1).admission.deferrals.length
      ∧ (withRules 1).admission.deferrals.length < (1 : Byte).toNat :=
  ⟨ready_idle rfl, framed (by decide), framed (by decide), framed (by decide), by decide, by decide,
    by decide, by decide, by decide, by decide⟩

theorem witness_FirstMatchingRuleDecides :
    (withRules 2).admission.filter
        = [] ++ ⟨0, 0, .admits, none, none⟩ :: [⟨0, 0, .admits, none, none⟩]
      ∧ (∀ n, n < 64 → (0 : Identity).getLsbD n = true →
          someone.getLsbD n = (0 : Identity).getLsbD n)
      ∧ ∀ q ∈ (withRules 0).admission.filter,
          ¬ ∀ n, n < 64 → q.mask.getLsbD n = true → someone.getLsbD n = q.pattern.getLsbD n := by
  refine ⟨rfl, fun n _ h => ?_, fun q hq => ?_⟩
  · simp at h
  · exact absurd hq (by simp [withRules, State.reset])

/-- A JOIN's fifteen bytes: class set 04h, lease 0, no hint. -/
def joinBytes (more : Byte) : List Byte :=
  identityBytes someone ++ [0, 9, 0x04, 0, 0, 0, more]

theorem witness_JoinHeldOffInSettling :
    Front (asked (inPhase .settling) 254 .join (joinBytes 0)) ⟨254, true, .join, joinBytes 0⟩ []
      ∧ (inPhase .settling).admission.deferrals.length ≤ 16
      ∧ ((inPhase .settling).admission.deferrals.map Deferral.identity).Nodup
      ∧ (∀ d ∈ (inPhase .settling).admission.deferrals, d.identity ≠ someone)
      ∧ ∃ s : State, s.phase.phase = .settling ∧ s.admission.deferrals.length = 1
          ∧ ∃ d ∈ s.admission.deferrals, d.identity = payloadIdentity (joinBytes 0) := by
  refine ⟨rfl, by decide, by decide, fun d hd => absurd hd (by simp [inPhase, State.reset]), ?_⟩
  exact ⟨{ inPhase .settling with admission.deferrals := [⟨someone, 255⟩] }, rfl, rfl,
    ⟨someone, 255⟩, by simp, by decide⟩

/-! ### Witnesses: entry commands -/

/-- An ADD-STATIC of address 7 and the identity, class 2, window 8, no groups, no label. -/
def addBytes : List Byte :=
  [7, 1] ++ identityBytes someone ++ [2, 8, 0, 0, 0, 0, 0, 0] ++ List.replicate 12 0

theorem test_addBytes_read :
    readStatic addBytes = some ⟨7, some someone, ⟨2, 8, []⟩, none⟩ := by decide

/-- A table that is full of HELD entries at the addresses from 1 on. -/
def fullOfHeld : State :=
  { State.reset with
    table.entries := Vector.ofFn (fun i : Fin 160 =>
      { held with address := some (i.val + 10), identity := some (BitVec.ofNat 64 i.val) }) }

/-- A table that is full of LEGACY entries. -/
def fullOfLegacy : State :=
  { State.reset with
    table.entries := Vector.ofFn (fun i : Fin 160 => { legacy with address := some (i.val + 10) }) }

theorem witness_AddStaticTakesLowestFree :
    Ready State.reset ∧ Framed 0x0A (frame 0x0A addBytes) ∧ (frame 0x0A addBytes).params.length = 30
      ∧ AddressUnheld State.reset 7 ∧ IdentityUnheld State.reset someone
      ∧ Lowest (fun j : Index => (entry State.reset j).state = .free) 0 := by
  exact ⟨ready_idle rfl, framed (by decide), by decide, address_unheld_reset 7,
    identity_unheld_reset someone, lowest_first (by rw [entry_reset]; rfl)⟩

theorem entry_fullOfHeld (i : Index) :
    entry fullOfHeld i
      = { held with address := some (i.val + 10), identity := some (BitVec.ofNat 64 i.val) } := by
  simp [entry, fullOfHeld]

theorem entry_fullOfLegacy (i : Index) :
    entry fullOfLegacy i = { legacy with address := some (i.val + 10) } := by
  simp [entry, fullOfLegacy]

theorem witness_AddStaticChecksAndReclaims :
    readStatic (0 :: addBytes.tail) = none
      ∧ entry (withOne .active fixed) 0 = fixed ∧ fixed.occupied = true ∧ fixed.address = some 7
      ∧ AddressUnheld (withOne .active { fixed with address := some 8 }) 7
      ∧ entry (withOne .active { fixed with address := some 8 }) 0 = { fixed with address := some 8 }
      ∧ AddressUnheld fullOfHeld 7 ∧ IdentityUnheld fullOfHeld someone
      ∧ (∀ i, (entry fullOfHeld i).state = .held ∧ (entry fullOfHeld i).remaining = some 1)
      ∧ AddressUnheld fullOfLegacy 7 ∧ IdentityUnheld fullOfLegacy someone
      ∧ (∀ i, (entry fullOfLegacy i).state ≠ .free ∧ (entry fullOfLegacy i).state ≠ .held) := by
  refine ⟨by decide, entry_first _ _, rfl, rfl, address_unheld _ (by decide), entry_first _ _,
    fun i _ => ?_, fun i _ => ?_, fun i => ?_, fun i _ => ?_, fun i _ => ?_, fun i => ?_⟩
  · rw [entry_fullOfHeld]; simp
  · have h : ∀ k : Fin 160, some (BitVec.ofNat 64 k.val) ≠ some someone := by decide +kernel
    rw [entry_fullOfHeld]; exact h i
  · rw [entry_fullOfHeld]; exact ⟨rfl, rfl⟩
  · rw [entry_fullOfLegacy]; simp
  · rw [entry_fullOfLegacy]; simp [legacy, Entry.freeAt]
  · rw [entry_fullOfLegacy]; simp [legacy]

/-- An ADD-STATIC of the identity: address, flags, class, window, the count of its groups, of which the
first is 13, and the length of its label, all letters A. -/
def addFields (address flags cls window count length : Byte) : List Byte :=
  [address, flags] ++ identityBytes someone ++ [cls, window, count, 13, 0, 0, 0, length]
    ++ List.replicate 12 0x41

/-- The fields of ADD-STATIC at the ends of their ranges, and each of them one beyond. -/
theorem witness_AddStaticChecksAndReclaims_fields :
    (addFields 239 3 7 64 1 12).length = 30
      ∧ readStatic (addFields 239 3 7 64 1 12)
          = some ⟨239, some someone, ⟨7, 64, [13]⟩, some (List.replicate 12 0x41)⟩
      ∧ readStatic (addFields 1 2 0 1 0 1) = some ⟨1, none, ⟨0, 1, []⟩, some [0x41]⟩
      -- a label that is not marked present is not examined
      ∧ readStatic (addFields 1 0 0 1 0 13) = some ⟨1, none, ⟨0, 1, []⟩, none⟩
      ∧ [addFields 0 0 0 1 0 0, addFields 240 0 0 1 0 0, addFields 1 4 0 1 0 0,
          addFields 1 0 8 1 0 0, addFields 1 0 0 0 0 0, addFields 1 0 0 65 0 0,
          addFields 1 0 0 1 5 0, addFields 1 2 0 1 0 0, addFields 1 2 0 1 0 13].map readStatic
          = List.replicate 9 none
      ∧ Reclaimed fullOfHeld 0 := by
  refine ⟨by decide, by decide, by decide, by decide, by decide, lowest_first ⟨?_, fun k _ => ?_⟩⟩
  · rw [entry_fullOfHeld]; rfl
  · rw [entry_fullOfHeld, entry_fullOfHeld]

/-- The index 0, the generation 5, and a flag byte. -/
def atEntry (flags : Byte) : List Byte := [0, 0, 5, flags]

/-- An EDIT that gives class 4, with or without notify. -/
def editBytes (notify : Byte) : List Byte := atEntry (2 + notify) ++ 4 :: List.replicate 21 0

/-- An EDIT that gives the lease 4095, with or without notify. -/
def leaseBytes (notify : Byte) : List Byte :=
  atEntry (64 + notify) ++ (List.replicate 20 0 ++ [0x0F, 0xFF])

theorem witness_EditReplacesSettings :
    Ready (withOne .active bound) ∧ Framed 0x0B (frame 0x0B (editBytes 0))
      ∧ (frame 0x0B (editBytes 0)).params.length = 26
      ∧ readEdit (editBytes 0) = some ⟨0, 5, false, some 4, none, none, none, false, none⟩
      ∧ entry (withOne .active bound) 0 = bound ∧ bound.terms = some ⟨2, 8, [3]⟩
      ∧ bound.live = true ∧ bound.generation = 5
      ∧ bound.origin ≠ some .legacy ∧ bound.origin ≠ some .static ∧ bound.origin ≠ some .adopted
      -- a lease alone changes no tracked field
      ∧ readEdit (leaseBytes 0) = some ⟨0, 5, false, none, none, none, none, false, some 4095⟩ := by
  exact ⟨ready_idle rfl, framed (by decide), by decide, by decide, entry_first _ _, rfl,
    by decide, rfl, by decide, by decide, by decide, by decide⟩

/-- The refusals of EDIT, each with what comes before it passed. -/
theorem witness_EditReplacesSettings_refusals :
    readEdit (160 :: (editBytes 0).tail) = none ∧ (159 : Byte).toNat = 159
      ∧ readEdit (atEntry 128 ++ List.replicate 22 0) = none
      ∧ readEdit (atEntry 0x30 ++ List.replicate 22 0) = none
      ∧ readEdit (editBytes 1) = some ⟨0, 5, true, some 4, none, none, none, false, none⟩
      ∧ (withOne .offline bound).phase.phase = .offline ∧ (withOne .active bound).phase.phase ≠ .offline
      ∧ ({ bound with generation := 6 } : Entry).generation ≠ 5
      ∧ held.generation = 5 ∧ held.live = false ∧ legacy.generation = 5 ∧ legacy.origin = some .legacy
      ∧ fixed.live = true ∧ fixed.generation = 5 ∧ fixed.origin = some .static
      ∧ readEdit (atEntry 0x20 ++ List.replicate 22 0)
          = some ⟨0, 5, false, none, none, none, none, true, none⟩
      ∧ ({ bound with origin := some .adopted } : Entry).live = true := by
  exact ⟨by decide, by decide, by decide, by decide, by decide, rfl,
    by decide, by decide, rfl, by decide, rfl, rfl, by decide, rfl, rfl, by decide, by decide⟩

/-- REVOKE's and CONFIRM's five bytes. -/
def endBytes (second notify : Byte) : List Byte := atEntry second ++ [notify]

/-- The live entry in dispute. -/
def disputed : Entry := { bound with dispute := ⟨true, false⟩ }

theorem witness_HostEndsBinding :
    Ready (withOne .active bound) ∧ Ready (withOne .active disputed)
      ∧ (frame 0x0C (endBytes 0 0)).params.length = 5
      ∧ readEnd (endBytes 0 0) = some ⟨0, 5, false, false⟩
      ∧ readEnd (endBytes 1 0) = some ⟨0, 5, true, false⟩
      ∧ Framed 0x0C (frame 0x0C (endBytes 0 0)) ∧ Framed 0x0D (frame 0x0D (endBytes 1 0))
      ∧ (∀ e, GoneThen (withOne .active e) 0 id)
      ∧ bound.leased = true ∧ (withOne .active bound).phase.params.hold ≠ 0
      ∧ disputed.dispute.present = true ∧ disputed.live = true ∧ disputed.generation = 5
      ∧ ({ fixed with dispute := ⟨false, true⟩ } : Entry).leased = false := by
  exact ⟨ready_idle rfl, ready_idle rfl, by decide, by decide, by decide,
    framed (by decide), framed (by decide), fun _ => Or.inl ⟨unprobed rfl 0, rfl⟩, by decide,
    by decide, by decide, by decide, rfl, by decide⟩

/-- The refusals of REVOKE and CONFIRM, each with what comes before it passed. -/
theorem witness_HostEndsBinding_refusals :
    readEnd (160 :: (endBytes 0 0).tail) = none ∧ readEnd (endBytes 2 0) = none
      ∧ readEnd (endBytes 0 2) = none
      ∧ readEnd (endBytes 1 1) = some ⟨0, 5, true, true⟩
      ∧ Ready (withOne .offline bound) ∧ (withOne .offline bound).phase.phase = .offline
      ∧ ({ bound with generation := 6 } : Entry).generation ≠ 5
      ∧ held.live = false ∧ held.generation = 5
      ∧ ¬ (bound.live = true ∧ bound.dispute.present = true) ∧ bound.generation = 5 := by
  exact ⟨by decide, by decide, by decide, by decide, ready_idle rfl,
    rfl, by decide, by decide, rfl, by decide, rfl⟩

theorem witness_ConfirmKeepRemovesDispute :
    Ready (withOne .active disputed) ∧ Framed 0x0D (frame 0x0D (endBytes 0 0))
      ∧ readEnd (endBytes 0 0) = some ⟨0, 5, false, false⟩ ∧ readEnd (endBytes 2 0) = none
      ∧ entry (withOne .active disputed) 0 = disputed ∧ disputed.live = true
      ∧ disputed.generation = 5 ∧ ({ disputed with generation := 6 } : Entry).generation ≠ 5
      ∧ disputed.dispute.present = true
      ∧ ¬ (bound.live = true ∧ bound.dispute.present = true) := by
  exact ⟨ready_idle rfl, framed (by decide), by decide, by decide, entry_first _ _,
    by decide, rfl, by decide, by decide, by decide⟩

theorem witness_NoticeHoldsCommand :
    Ready (withOne .active bound) ∧ (withOne .active bound).phase.phase ≠ .offline
      ∧ bound.address = some 7 ∧ bound.live = true ∧ bound.generation = 5
      ∧ readEdit (editBytes 1) = some ⟨0, 5, true, some 4, none, none, none, false, none⟩
      ∧ readEdit (leaseBytes 1) = some ⟨0, 5, true, none, none, none, none, false, some 4095⟩
      ∧ readEnd (endBytes 0 1) = some ⟨0, 5, false, true⟩
      ∧ entry (withOne .active bound) 0 = bound ∧ editable bound = true
      ∧ ¬ cannotHold ⟨0, 5, true, some 4, none, none, none, false, none⟩ bound
      ∧ GoneThen (withOne .active bound) 0 id
      ∧ Framed 0x0B (frame 0x0B (editBytes 1)) ∧ Framed 0x0C (frame 0x0C (endBytes 0 1)) := by
  exact ⟨ready_idle rfl, by decide, rfl, by decide, rfl, by decide, by decide,
    by decide, entry_first _ _, by decide, by decide, Or.inl ⟨unprobed rfl 0, rfl⟩,
    framed (by decide), framed (by decide)⟩

theorem witness_NoticeHoldsCommand_evict :
    Ready (withOne .active disputed) ∧ Framed 0x0D (frame 0x0D (endBytes 1 1))
      ∧ readEnd (endBytes 1 1) = some ⟨0, 5, true, true⟩ ∧ disputed.dispute.present = true
      ∧ entry (withOne .active disputed) 0 = disputed ∧ disputed.address = some 7
      ∧ disputed.live = true ∧ GoneThen (withOne .active disputed) 0 id := by
  exact ⟨ready_idle rfl, framed (by decide), by decide, by decide, entry_first _ _, rfl,
    by decide, Or.inl ⟨unprobed rfl 0, rfl⟩⟩

/-! ### Witnesses: reads and the change unit -/

theorem witness_ReadsReturnRecords :
    Ready (withOne .active bound) ∧ Framed 0x02 (frame 0x02 [0x27]) ∧ Framed 0x0E (frame 0x0E [159])
      ∧ Framed 0x11 (frame 0x11 [7]) ∧ Framed 0x0F (frame 0x0F [7])
      ∧ Param.ofNumber 0x27 = some (.windowCap 7) ∧ Param.ofNumber 0x28 = none
      ∧ (159 : Byte).toNat < 160 ∧ 160 ≤ (160 : Byte).toNat ∧ (7 : Byte).toNat < 8
      ∧ 8 ≤ (8 : Byte).toNat ∧ (0 : Byte).toNat = 0 ∧ 239 < (240 : Byte).toNat
      ∧ AddressUnheld (withOne .active bound) (239 : Byte).toNat
      ∧ HoldsAddress (withOne .active bound) 0 (7 : Byte).toNat := by
  refine ⟨ready_idle rfl, framed (by decide), framed (by decide), framed (by decide),
    framed (by decide), by decide, by decide, by decide, by decide, by decide, by decide, by decide,
    by decide, address_unheld _ (by decide), holds_address _ (by decide) (by decide)⟩

/-- A FREE entry as soundness has it. -/
theorem witness_ReadsReturnRecords_free :
    EntrySound (Entry.freeAt 5) ∧ (Entry.freeAt 5).state = .free ∧ (Entry.freeAt 5).generation = 5 := by
  refine ⟨?_, rfl, rfl⟩
  simp [EntrySound, Entry.freeAt]
  decide

/-- The part with causes pending for entry 0 and for itself. -/
def withPending (e : CauseSet) (p : CauseSet) : State :=
  withCauses 0 e { State.reset with change.partCauses := p }

theorem witness_NextChangeReports :
    (∀ e p, Ready (withPending e p)) ∧ Framed 0x13 (frame 0x13 [])
      ∧ Lowest (fun j : Index => (withPending 3 1).change.entryCauses[j] ≠ 0) 0
      ∧ (∀ j : Index, (withPending 0 1).change.entryCauses[j] = 0)
      ∧ (withPending 0 1).change.partCauses ≠ 0
      ∧ (∀ j : Index, (withPending 0 0).change.entryCauses[j] = 0)
      ∧ (withPending 0 0).change.partCauses = 0 := by
  exact ⟨fun _ _ => ready_idle rfl, framed (by decide), lowest_first (by decide),
    by decide +kernel, by decide, by decide +kernel, by decide⟩

theorem witness_change_commands :
    Ready State.reset ∧ Framed 0x14 (frame 0x14 [2]) ∧ Framed 0x15 (frame 0x15 [1, 31, 31])
      ∧ 1 < (2 : Byte).toNat ∧ (1 : Byte).toNat ≤ 1 ∧ (31 : Byte).toNat < 32
      ∧ 32 ≤ (32 : Byte).toNat :=
  ⟨ready_idle rfl, framed (by decide), framed (by decide), by decide, by decide, by decide,
    by decide⟩

theorem witness_InterruptFollowsCauses : Listening State.reset := listening

theorem witness_CounterStandsAtCeiling :
    counter State.reset .joins < 65535
      ∧ 65535 ≤ counter
          { State.reset with change.counters := State.reset.change.counters.set 0 65535 } .joins
      ∧ Counter.grants ≠ .joins := by
  exact ⟨by decide, by decide, by decide⟩

/-! ### Witnesses: the host port -/

/-- The part with a result unread, being read. -/
def reading (isRecord : Bool) : State :=
  { State.reset with
    host.engine := .done ⟨1, .ok, []⟩, host.transaction := .result [1, 0, 0] isRecord }

theorem witness_ResultTakenAtTwoEvents :
    Listening (reading true) ∧ (reading true).host.engine = .done ⟨1, .ok, []⟩
      ∧ Listening (inPhase .active) ∧ (∀ r, (inPhase .active).host.engine ≠ .done r)
      ∧ (reading true).host.transaction = .result [1, 0, 0] true
      ∧ (reading false).host.transaction = .result [1, 0, 0] false
      ∧ 2 < (replyBytes (reading true)).length ∧ (replyBytes (reading true)).length ≤ 3
      ∧ ({ State.reset with host.transaction := .filler } : State).host.transaction = .filler
      ∧ ∃ w, ({ State.reset with host.transaction := .status 1 } : State).host.transaction
          = .status w := by
  refine ⟨?_, rfl, listening, (by intro r h; cases h), rfl, rfl, by decide, by decide, rfl, 1, rfl⟩
  intro h; cases h

theorem witness_StatusReportsAndClears : Listening State.reset := listening

/-- A LOOKUP of every entry, from a cursor. -/
def lookAll (cursor : Index) : LookupRequest := ⟨0, 0, 255, cursor, false, false⟩

/-- A FIND of every entry from station 9. -/
def findAll : FindRequest := ⟨9, 0, 0, 255, 0⟩

theorem witness_AbortEndsLookupOrEdit :
    Listening State.reset ∧ (∀ c, State.reset.host.engine ≠ .executing c)
      ∧ (∃ s : State, Listening s ∧ s.host.engine = .executing ⟨1, 0x10, [], .walk⟩
          ∧ s.lookup.walk = some (.host (lookAll 0) 0 []) ∧ s.lookup.hostSlot = none
          ∧ s.lookup.busWaiting = [])
      ∧ (∃ s : State, Listening s ∧ s.host.engine = .executing ⟨1, 0x10, [], .walk⟩
          ∧ s.lookup.walk = some (.host (lookAll 0) 0 []) ∧ s.lookup.hostSlot = none
          ∧ s.lookup.busWaiting = [findAll])
      ∧ (∃ s : State, Listening s ∧ s.host.engine = .executing ⟨1, 0x10, [], .walk⟩
          ∧ s.lookup.walk = some (.bus findAll 0 []) ∧ s.lookup.hostSlot = some (lookAll 0))
      ∧ Listening (busy (.notice 0 5) 0x0B)
      ∧ (busy (.notice 0 5) 0x0B).host.engine = .executing ⟨1, 0x0B, [], .notice 0 5⟩
      ∧ Listening (busy .attemptEnd 0x04)
      ∧ (busy .attemptEnd 0x04).host.engine = .executing ⟨1, 0x04, [], .attemptEnd⟩
      ∧ (0x0C : Byte) ≠ 0x0B := by
  refine ⟨listening, (by intro c h; cases h), ?_, ?_, ?_, listening, rfl, listening, rfl, by decide⟩
  · exact ⟨{ busy .walk 0x10 with lookup.walk := some (.host (lookAll 0) 0 []) },
      listening, rfl, rfl, rfl, rfl⟩
  · exact ⟨{ busy .walk 0x10 with
        lookup.walk := some (.host (lookAll 0) 0 []), lookup.busWaiting := [findAll] },
      listening, rfl, rfl, rfl, rfl⟩
  · exact ⟨{ busy .walk 0x10 with
        lookup.walk := some (.bus findAll 0 []), lookup.hostSlot := some (lookAll 0) },
      listening, rfl, rfl, rfl⟩

/-! ### Witnesses: lookups -/

/-- A LOOKUP's twenty bytes: every entry, any group, cursor 159, live entries only. -/
def lookupBytes : List Byte := List.replicate 16 0 ++ [255, 159, 0, 0]

/-- A FIND's eighteen bytes. -/
def findBytes : List Byte := List.replicate 16 0 ++ [255, 0]

theorem witness_LookupAndFindStart :
    Ready (inPhase .active) ∧ Framed 0x10 (frame 0x10 lookupBytes)
      ∧ (frame 0x10 lookupBytes).params.length = 20
      ∧ readLookup lookupBytes = some ⟨0, 0, 255, 159, true, false⟩
      ∧ (inPhase .active).lookup.hostSlot = none ∧ (inPhase .active).lookup.walk = none
      ∧ (inPhase .active).lookup.busWaiting = []
      ∧ Front (asked (inPhase .active) 9 .find findBytes) ⟨9, true, .find, findBytes⟩ []
      ∧ (∃ s : State, Ready s ∧ s.lookup.walk = some (.bus findAll 0 [])
          ∧ s.lookup.hostSlot = none ∧ s.lookup.busWaiting = [findAll])
      ∧ ∃ s : State, 2 ≤ s.lookup.busWaiting.length := by
  refine ⟨ready_idle rfl, framed (by decide), by decide, by decide, rfl, rfl, rfl, rfl, ?_, ?_⟩
  · exact ⟨{ State.reset with
      lookup.walk := some (.bus findAll 0 []), lookup.busWaiting := [findAll] },
      ready_idle rfl, rfl, rfl, rfl⟩
  · exact ⟨{ State.reset with lookup.busWaiting := [findAll, findAll] }, by decide⟩

/-- A FIND and a LOOKUP both wait, and the last walk was for one asker. -/
def bothWait (last : Asker) : State :=
  { State.reset with
    lookup.busWaiting := [findAll], lookup.hostSlot := some (lookAll 0), lookup.lastStarted := last }

theorem witness_LookupAndFindStart_arbiter :
    ∀ last, (bothWait last).lookup.walk = none ∧ (bothWait last).lookup.busWaiting = findAll :: []
      ∧ (bothWait last).lookup.hostSlot = some (lookAll 0)
      ∧ (bothWait last).lookup.lastStarted = last :=
  fun _ => ⟨rfl, rfl, rfl, rfl⟩

/-- A LOOKUP's fields at the ends of their ranges, and each of them one beyond. -/
theorem witness_LookupAndFindStart_fields :
    readLookup (List.replicate 16 0 ++ [13, 159, 1, 1]) = some ⟨0, 0, 13, 159, false, true⟩
      ∧ [[14, 0, 0, 0], [254, 0, 0, 0], [255, 160, 0, 0], [255, 0, 2, 0], [255, 0, 0, 2]].map
          (fun l : List Byte => readLookup (List.replicate 16 0 ++ l))
          = List.replicate 5 none := by
  decide

theorem witness_WalkExaminesOneEntry :
    ({ withOne .active bound with lookup.walk := some (.bus findAll 0 []) } : State).lookup.walk
        = some (.bus findAll 0 [])
      ∧ entry (withOne .active bound) 0 = bound ∧ bound.state = .bound ∧ bound.origin ≠ none
      ∧ bound.origin ≠ some .legacy ∧ bound.identity = some someone ∧ bound.address = some 7
      ∧ bound.terms = some ⟨2, 8, [3]⟩
      ∧ bound.dispute = ⟨false, false⟩ ∧ someone &&& findAll.mask = findAll.pattern &&& findAll.mask
      ∧ (∃ l : List FoundRecord, l.length = 3) ∧ findAll.group = 255
      ∧ entry (withOne .active bound) 159 = Entry.freeAt 0 ∧ (158 : Nat) < 159 := by
  exact ⟨rfl, entry_first _ _, rfl, by decide, by decide, rfl, rfl, rfl, rfl, by decide,
    ⟨List.replicate 3 ⟨someone, 7, 2, 5⟩, rfl⟩, rfl, entry_other _ _ (by decide), by decide⟩

/-- A LOOKUP of all occupied entries at its eighth record, and one of the live entries. -/
theorem witness_WalkExaminesOneEntry_lookup :
    (∃ (s : State) (l : List LookupRecord) (c : CommandRecord),
        s.lookup.walk = some (.host (lookAll 0) 159 l) ∧ l.length = 7 ∧ s.host.engine = .executing c)
      ∧ (lookAll 0).liveOnly = false ∧ (lookAll 0).excludeDisputed = false
      ∧ (lookAll 0).group = 255 ∧ (lookAll 0).mask = 0
      ∧ held.state ≠ .free ∧ legacy.state ≠ .free ∧ legacy.identity = none
      ∧ disputed.dispute ≠ ⟨false, false⟩ := by
  refine ⟨⟨{ busy .walk 0x10 with
      lookup.walk := some (.host (lookAll 0) 159
        (List.replicate 7 ⟨0, .bound, none, none, 7, 5, ⟨false, false⟩⟩)) }, _, _, rfl, rfl, rfl⟩,
    rfl, rfl, rfl, rfl, by decide, by decide, rfl, by decide⟩

/-! ### Witnesses: the invariants

One sound state in ACTIVE with an OFFERED context, its RESERVED entry and a STATUS waiting. -/

/-- The RESERVED entry of an offer. -/
def reserved : Entry :=
  { Entry.freeAt 5 with
    state := .reserved, origin := some .negotiated, identity := some someone,
    incarnation := some 9, address := some 7, terms := some ⟨2, 8, []⟩ }

/-- An exchange of the joiner in a stage. -/
def exchange (stage : Stage) : Exchange :=
  { identity := someone, incarnation := 9, classSet := 4, requestedLease := 0, hint := 0,
    lastTurn := 0, pagesTaken := 0, groupsPage := none, windowRequest := none, label := none,
    classCap := 0xFF, leaseCap := none, target := none, probeNeeded := false, stage := stage }

/-- The offer of entry 0. -/
def offer : Offer := ⟨0, 2, 7, 8, 120, 1, 500000⟩

/-- The part in ACTIVE with one entry and context 0 in use. -/
def engaged (e : Entry) (x : Exchange) : State :=
  { withOne .active e with join.contexts := State.reset.join.contexts.set 0 (some x) }

theorem context_first (e : Entry) (x : Exchange) : context (engaged e x) 0 = some x := by
  simp [context, engaged]

theorem context_only {e : Entry} {x y : Exchange} {c : CtxNum}
    (h : context (engaged e x) c = some y) : c = 0 ∧ y = x := by
  by_cases h0 : c = 0
  · rw [h0, context_first] at h; exact ⟨h0, (Option.some.inj h).symm⟩
  · have : (0 : Nat) ≠ c.val := fun k => h0 (Fin.ext k.symm)
    simp [context, engaged, withOne, withEntry, inPhase, State.reset, this] at h

/-- The sound state. -/
def sound : State :=
  { engaged reserved (exchange (.offered offer)) with
    lease.nextTick := some 1000000, pending := [.status] }

theorem default_params_sound : ParamsSound Params.default := by
  refine ⟨fun k _ => ?_, by decide, by decide, by decide, by decide, by decide⟩
  cases k with
  | windowCap c => simp [Params.get, Params.default, Param.inRange]
  | _ => decide

theorem sound_entries (q : Entry → Prop) (h0 : q reserved) (h : q (Entry.freeAt 0)) :
    ∀ i, q (entry sound i) := by
  intro i
  by_cases hi : i = 0
  · have : entry sound 0 = reserved := entry_first .active reserved
    rw [hi, this]; exact h0
  · have : entry sound i = Entry.freeAt 0 := entry_other .active reserved hi
    rw [this]; exact h

theorem sound_zero {i : Index} (h : (entry sound i).state ≠ .free) : i = 0 := by
  by_cases hi : i = 0
  · exact hi
  · have : entry sound i = Entry.freeAt 0 := entry_other .active reserved hi
    exact absurd rfl (this ▸ h)

theorem sound_free {i : Index} (h : (entry sound i).state = .free) :
    entry sound i = Entry.freeAt 0 := by
  by_cases hi : i = 0
  · have : entry sound 0 = reserved := entry_first .active reserved
    rw [hi, this] at h; cases h
  · exact entry_other .active reserved hi

theorem sound_context {c : CtxNum} {y : Exchange} (h : context sound c = some y) :
    c = 0 ∧ y = exchange (.offered offer) :=
  context_only (e := reserved) h

theorem witness_TableSound : TableSound sound := by
  refine ⟨default_params_sound, sound_entries EntrySound ?_ ?_, ?_, ?_⟩
  · simp [EntrySound, reserved, Entry.freeAt, Entry.leased, Entry.timed, Entry.live,
      Dispute.present]
  · simp [EntrySound, Entry.freeAt, Entry.leased, Entry.timed, Dispute.present]
  · intro i j a hi hj
    rw [sound_zero (i := i) (fun h => ?_), sound_zero (i := j) (fun h => ?_)]
    · rw [sound_free h] at hj; cases hj
    · rw [sound_free h] at hi; cases hi
  · intro i j x hi hj
    rw [sound_zero (i := i) (fun h => ?_), sound_zero (i := j) (fun h => ?_)]
    · rw [sound_free h] at hj; cases hj
    · rw [sound_free h] at hi; cases hi

theorem witness_JoinSound : JoinSound sound := by
  have e0 : entry sound 0 = reserved := entry_first .active reserved
  refine ⟨fun c d x y hc hd _ => ?_, fun c x o hc ho => ?_, fun i hi => ?_, fun c x hc hx => ?_,
    ⟨by decide, by decide, fun d hd => ?_, fun c x _ d hd => ?_⟩, ?_, fun h => ?_⟩
  · rw [(sound_context hc).1, (sound_context hd).1]
  · rw [(sound_context hc).2] at ho ⊢
    cases ho
    rw [show offer.entry = 0 from rfl, e0]
    exact ⟨rfl, rfl, rfl⟩
  · have h0 : i = 0 := sound_zero (by rw [hi]; decide)
    exact ⟨0, _, offer, context_first reserved _, rfl, h0.symm⟩
  · rw [(sound_context hc).2] at hx; cases hx
  · cases hd
  · cases hd
  · intro h; rcases h with h | h <;> cases h
  · cases h

theorem witness_ClockSound : ClockSound sound := by
  refine ⟨⟨fun h => ?_, fun h => ?_⟩, ⟨fun h => ?_, fun h => ?_⟩, fun n h => ?_, fun h => ?_,
    by decide⟩ <;> cases h

theorem witness_LookupSound : LookupSound sound :=
  ⟨fun _ => ⟨rfl, rfl⟩, by decide, fun w h => by cases h⟩

theorem witness_PortSound : PortSound sound :=
  ⟨⟨fun _ => rfl, fun _ => rfl⟩, by decide, by decide, by decide, by decide⟩

theorem witness_EngineSound : EngineSound sound := by
  refine ⟨fun h => ?_, by decide, ⟨fun h => ?_, fun h => ?_⟩, ⟨fun h => ?_, fun h => ?_⟩, by decide,
    fun _ h => ?_⟩ <;> cases h

theorem witness_QueueSound : WaitingDistinct sound ∧ CollisionsSound sound := by
  refine ⟨?_, ⟨fun m hm => ?_, fun m hm => ?_⟩⟩
  · exact List.Pairwise.nil
  · cases hm
  · cases hm

theorem witness_ValuesInRange : ValuesInRange sound := by
  refine ⟨default_params_sound, sound_entries EntryInRange ?_ ?_, fun c x hc => ?_, fun r hr => ?_,
    by decide, fun r hr => ?_, fun k => ?_⟩
  · simp [EntryInRange, reserved, Entry.freeAt, GroupsInRange]
  · simp [EntryInRange, Entry.freeAt]
  · rw [(sound_context hc).2]
    simp [ExchangeInRange, exchange, offer, TicksInRange]
  · cases hr
  · cases hr
  · cases k <;> decide

/-- From the sound state a step answers a next state, which every invariant's statement asks. -/
theorem witness_step : ∃ t, step sound = .next t := ⟨_, rfl⟩

theorem witness_GenerationTellsChange :
    Instr.status ≠ .coldReset ∧ ∃ t, exec .status sound = .next t
      ∧ (entry t 0).generation = (entry sound 0).generation :=
  ⟨by decide, _, rfl, rfl⟩

theorem witness_TeardownCommands :
    Ready sound ∧ Framed 0x04 (frame 0x04 []) ∧ Framed 0x17 (frame 0x17 [])
      ∧ sound.phase.phase ≠ .offline ∧ (inPhase .offline).phase.phase = .offline :=
  ⟨ready_idle rfl, framed (by decide), framed (by decide), by decide, rfl⟩

theorem witness_FrameRoundTrip :
    (255 : Nat) ≤ 255 ∧ ∀ c l, Answer.found 255 (List.replicate 4 ⟨someone, 7, 2, 5⟩) = .found c l →
      l.length ≤ 4 := by
  refine ⟨Nat.le_refl 255, fun c l h => ?_⟩
  cases h; decide

/-! ### Witnesses: receiving -/

/-- The bytes of a frame whose check is right. -/
def message (destination source control : Byte) (payload : List Byte) : List Byte :=
  let body := [destination, source, control, oneByte payload.length] ++ payload
  body ++ checkBytes (crc body)

theorem witness_MessageReceived :
    (∀ p, Hearing (inPhase p)) ∧ readFrame [] 0 = none
      ∧ readFrame (message 0 254 1 (joinBytes 0)) 0 = some ⟨0, 254, false, 1, joinBytes 0⟩
      ∧ requestCode .join = 1 ∧ ¬ ContentError .join (joinBytes 0)
      ∧ (inPhase .active).port.inbound.length < 4
      ∧ (∃ s : State, Hearing s ∧ s.phase.phase = .active ∧ s.port.inbound.length = 3)
      ∧ ∃ s : State, Hearing s ∧ s.phase.phase = .active ∧ 4 ≤ s.port.inbound.length := by
  refine ⟨fun _ => ⟨rfl, rfl⟩, by decide, by decide +kernel, rfl, id, by decide, ?_, ?_⟩
  · exact ⟨{ inPhase .active with port.inbound := List.replicate 3 ⟨254, true, .join, []⟩ },
      ⟨rfl, rfl⟩, rfl, rfl⟩
  · exact ⟨{ inPhase .active with port.inbound := List.replicate 4 ⟨254, true, .join, []⟩ },
      ⟨rfl, rfl⟩, rfl, by decide⟩

/-- What is not heard, what counts STRAYS, and a LEAVE and a FIND that the port refuses. -/
theorem witness_MessageReceived_bad :
    (∃ s : State, attemptUnderWay s ∧ s.port.surviving = true ∧ s.phase.phase = .offline)
      ∧ (∃ s : State, attemptUnderWay s ∧ s.port.surviving = false ∧ s.phase.phase = .active)
      ∧ (∃ s : State, ¬ attemptUnderWay s ∧ s.port.overlapped = true)
      ∧ readFrame (message 0 0 5 []) 0 = some ⟨0, 0, false, 5, []⟩
      ∧ readFrame (message 0 239 8 []) 0 = some ⟨0, 239, false, 8, []⟩
      ∧ readFrame (message 0 240 0x87 []) 0 = some ⟨0, 240, true, 7, []⟩ ∧ requestCode .reply = 7
      ∧ readFrame (message 9 240 5 []) 0 = some ⟨9, 240, false, 5, []⟩ ∧ requestCode .leave = 5
      ∧ ContentError .leave [] ∧ ContentError .find [] ∧ ContentError .reply []
      ∧ ContentError .keep (List.replicate 14 0) := by
  refine ⟨⟨{ State.reset with port.tx := .jamming 5, port.surviving := true }, rfl, rfl, rfl⟩,
    ⟨{ inPhase .active with port.tx := .sending 5 }, rfl, rfl, rfl⟩,
    ⟨{ State.reset with port.overlapped := true }, by decide, rfl⟩, by decide +kernel,
    by decide +kernel, by decide +kernel, rfl, by decide +kernel, rfl,
    show ([] : List Byte).length ≠ 10 by decide, Or.inl (by decide),
    show ([] : List Byte).length ≠ 10 by decide, Or.inr (Or.inl (by decide))⟩

theorem witness_TrafficReported :
    (∀ p e, Hearing (withOne p e))
      ∧ readFrame (message 9 7 6 []) 0 = some ⟨9, 7, false, 6, []⟩
      ∧ readFrame (message 9 239 0x86 []) 0 = some ⟨9, 239, true, 6, []⟩
      ∧ AddressUnheld (withOne .active (Entry.freeAt 5)) 7
      ∧ (withOne .active (Entry.freeAt 5)).phase.params.legacyLearning = true
      ∧ HoldsAddress (withOne .active legacy) 0 7 ∧ entry (withOne .active legacy) 0 = legacy
      ∧ legacy.state = .bound ∧ legacy.origin = some .legacy
      ∧ HoldsAddress (withOne .active bound) 0 7 ∧ entry (withOne .active bound) 0 = bound
      ∧ bound.live = true ∧ bound.leased = true ∧ bound.dispute.collision = false
      ∧ bound.origin ≠ some .legacy
      ∧ ({ bound with dispute := ⟨false, true⟩ } : Entry).dispute.collision = true
      ∧ AddressUnheld (withOne .active bound) 239 := by
  exact ⟨fun _ _ => ⟨rfl, rfl⟩, by decide +kernel, by decide +kernel, address_unheld _ (by decide), rfl,
    holds_address _ (by decide) rfl, entry_first _ _, rfl, rfl,
    holds_address _ (by decide) rfl, entry_first _ _, by decide, by decide, by decide, by decide, rfl,
    address_unheld _ (by decide)⟩

/-- The context that has offered entry 0. -/
def offering : Exchange := exchange (.offered offer)

/-- A RESERVED entry with its one context, a HELD entry with learning on and off, and STATIC ones. -/
theorem witness_TrafficReported_others :
    Hearing (engaged reserved offering) ∧ HoldsAddress (engaged reserved offering) 0 7
      ∧ entry (engaged reserved offering) 0 = reserved ∧ reserved.state = .reserved
      ∧ context (engaged reserved offering) 0 = some offering ∧ offering.stage = .offered offer
      ∧ offer.entry = 0
      ∧ (∀ d y, context (engaged reserved offering) d = some y → d = 0)
      ∧ HoldsAddress (withOne .active held) 0 7 ∧ held.state = .held
      ∧ Params.default.legacyLearning = true
      ∧ (∃ s : State, s = { withOne .active held with phase.params.legacyLearning := false }
          ∧ s.phase.params.legacyLearning = false)
      ∧ HoldsAddress (withOne .active fixed) 0 7 ∧ fixed.live = true ∧ fixed.origin = some .static
      ∧ fixed.identity ≠ none ∧ ({ fixed with identity := none } : Entry).identity = none := by
  exact ⟨⟨rfl, rfl⟩, holds_address .active (e := reserved) (by decide) rfl,
    entry_first .active reserved, rfl, context_first _ _, rfl, rfl, fun _ _ h => (context_only h).1,
    holds_address _ (by decide) rfl, rfl, rfl, ⟨_, rfl, rfl⟩, holds_address _ (by decide) rfl,
    by decide, rfl, by decide, rfl⟩

/-! ### Witnesses: joining -/

theorem witness_JoinTakesContext :
    Front (asked (inPhase .active) 254 .join (joinBytes 1)) ⟨254, true, .join, joinBytes 1⟩ []
      ∧ (readJoin (joinBytes 1)).more = true
      ∧ (readJoin (joinBytes 0)).more = false ∧ (readJoin (joinBytes 0)).hint = 0
      ∧ (∀ x, NoContext (asked (inPhase .active) 254 .join (joinBytes 1)) x)
      ∧ (∀ x, IdentityUnheld (asked (inPhase .active) 254 .join (joinBytes 1)) x)
      ∧ verdict (asked (inPhase .active) 254 .join (joinBytes 1)) someone = some ⟨0xFF, none⟩
      ∧ JoinTarget (inPhase .active) (readJoin (joinBytes 1)) none false
      ∧ Lowest
          (fun d => context (asked (inPhase .active) 254 .join (joinBytes 1)) d = none) 0 := by
  exact ⟨rfl, by decide, by decide, by decide, fun _ => no_context rfl _, identity_unheld_reset, rfl,
    Or.inl ⟨identity_unheld_reset _, rfl, rfl⟩, lowest_first (idle_contexts rfl 0)⟩

/-- A JOIN of a class set and a hint. -/
def joinFields (classes hint : Byte) : List Byte :=
  identityBytes someone ++ [0, 9, classes, 0, 0, hint, 0]

/-- The content of a JOIN at the ends of its ranges, and beyond; and a source that is not 254. -/
theorem witness_JoinTakesContext_content :
    [joinFields 0x80 239, joinFields 0 239, joinFields 0x80 240, (joinFields 1 0).dropLast].map
        (fun p => decide (p.length = 15 ∧ byteAt p 10 ≠ 0 ∧ (byteAt p 13).toNat ≤ 239))
        = [true, false, false, false]
      ∧ (inPhase .suspended).phase.phase ≠ .settling ∧ (253 : Nat) ≠ 254 := by
  decide

/-- The context that collects pages. -/
def collecting : Exchange := exchange (.collecting 200000)

/-- The context that probes entry 0 for a joiner of incarnation 10. -/
def probe : Exchange :=
  { exchange (.checking 1 (.running 100000)) with
    incarnation := 10, target := some 0, probeNeeded := true }

/-- The only context is the identity's. -/
theorem only_context {e : Entry} {x : Exchange} :
    ∀ c y, context (engaged e x) c = some y → y.identity = x.identity → c = 0 :=
  fun _ _ h _ => (context_only h).1

theorem holds_context {e : Entry} {x : Exchange}
    (h : ∀ o, x.stage = .offered o → o.entry = 0 ∧ e.state = .reserved) :
    HoldsContext (engaged e x) 0 x := by
  refine ⟨context_first _ _, only_context, fun o ho => ?_⟩
  rw [(h o ho).1]
  exact (congrArg Entry.state (entry_first .active e)).trans (h o ho).2

theorem holds_collecting (e : Entry) : HoldsContext (engaged e collecting) 0 collecting :=
  holds_context fun o h => by cases h

theorem holds_probe (e : Entry) : HoldsContext (engaged e probe) 0 probe :=
  holds_context fun o h => by cases h

theorem holds_offering : HoldsContext (engaged reserved offering) 0 offering :=
  holds_context fun o h => by cases h; exact ⟨rfl, rfl⟩

/-- A JOIN of incarnation 9 meets a context of its identity in each state, and of another incarnation. -/
theorem witness_JoinTakesContext_contexts :
    (readJoin (joinBytes 0)).identity = someone ∧ (readJoin (joinBytes 0)).incarnation = 9
      ∧ HoldsContext (engaged bound collecting) 0 collecting ∧ collecting.incarnation = 9
      ∧ collecting.identity = someone ∧ collecting.stage = .collecting 200000
      ∧ HoldsContext (engaged bound { probe with incarnation := 9 }) 0 { probe with incarnation := 9 }
      ∧ probe.checking = true
      ∧ HoldsContext (engaged reserved offering) 0 offering ∧ offering.incarnation = 9
      ∧ offering.stage = .offered offer
      ∧ HoldsContext (engaged bound probe) 0 probe ∧ probe.incarnation ≠ 9
      ∧ HoldsContext (engaged reserved { offering with incarnation := 10 }) 0
          { offering with incarnation := 10 } := by
  exact ⟨by decide, by decide, holds_collecting _, rfl, rfl, rfl,
    holds_context (by intro o h; cases h), rfl, holds_offering, rfl, rfl, holds_probe _, by decide,
    holds_context (by intro o h; cases h; exact ⟨rfl, rfl⟩)⟩

/-- The part in ACTIVE with every context held by another identity. -/
def crowded : State :=
  { inPhase .active with
    join.contexts := Vector.replicate 8 (some { collecting with identity := 1 }) }

/-- A STATIC entry, a refusing verdict, live entries, each kind of target, and no context to be had. -/
theorem witness_JoinTakesContext_entries :
    NoContext (withOne .active fixed) someone ∧ HoldsIdentity (withOne .active fixed) 0 someone
      ∧ entry (withOne .active fixed) 0 = fixed ∧ fixed.origin = some .static
      ∧ fixed.address = some 7 ∧ fixed.terms = some ⟨2, 8, []⟩
      ∧ verdict { inPhase .active with phase.params.defaultAdmit := false } someone = none
      ∧ HoldsIdentity (withOne .active bound) 0 someone ∧ bound.origin ≠ some .static
      ∧ disputed.live = true ∧ disputed.dispute.duplicate = true ∧ bound.live = true
      ∧ bound.dispute.duplicate = false ∧ bound.incarnation = some (readJoin (joinBytes 0)).incarnation
      ∧ HoldsIdentity (withOne .active { bound with state := .lapsing }) 0 someone
      ∧ JoinTarget (withOne .suspended held) (readJoin (joinBytes 0)) (some 0) false
      ∧ JoinTarget (withOne .active bound) (readJoin (joinBytes 1)) (some 0) false
      ∧ JoinTarget (withOne .active { bound with incarnation := some 8 }) (readJoin (joinBytes 0))
          (some 0) true
      ∧ (inPhase .suspended).phase.phase = .suspended
      ∧ (∀ c, context crowded c ≠ none) ∧ NoContext crowded someone := by
  have hid : ∀ m, (readJoin (joinBytes m)).identity = someone := fun m => by
    have : (readJoin (joinBytes m)).identity = identityAt (joinBytes m) 0 := rfl
    rw [this]; rfl
  refine ⟨no_context rfl _, holds_identity _ (by decide) rfl, entry_first _ _, rfl, rfl, rfl, rfl,
    holds_identity _ (by decide) rfl, by decide, by decide, rfl, by decide, rfl, by decide,
    holds_identity _ (by decide) rfl, Or.inr ⟨0, ?_, rfl, Or.inl ⟨?_, rfl⟩⟩,
    Or.inr ⟨0, ?_, rfl, Or.inr ?_⟩, Or.inr ⟨0, ?_, rfl, Or.inr ?_⟩, rfl, fun c h => ?_, fun c e h => ?_⟩
  · rw [hid]; exact holds_identity _ (by decide) rfl
  · rw [entry_first]; rfl
  · rw [hid]; exact holds_identity _ (by decide) rfl
  · rw [entry_first]; exact ⟨by decide, rfl, Or.inl ⟨by decide, by decide, rfl⟩⟩
  · rw [hid]; exact holds_identity _ (by decide) rfl
  · rw [entry_first]; exact ⟨by decide, rfl, Or.inr ⟨by decide, rfl⟩⟩
  · simp [context, crowded] at h
  · simp [context, crowded] at h; subst h; simp [someone]

theorem joined_address_one : AddressChosen (asked (inPhase .active) 254 .join (joinBytes 0)) 0 1 := by
  refine Or.inr ⟨fun h => h.1 rfl, ⟨by decide, by decide, address_unheld_reset 1⟩, fun b hb h => ?_⟩
  exact absurd (Nat.le_trans (show 1 ≤ Params.default.grantLow by decide) h.1) (Nat.not_le.2 hb)

theorem target_settled {e : Entry} {x : Exchange} (h1 : e.occupied = true)
    (h2 : e.identity = some x.identity) (h3 : e.leased = true) (h4 : x.target = some 0) :
    TargetSettled (engaged e x) x (some 0) := by
  have he : entry (engaged e x) 0 = e := entry_first .active e
  exact Or.inl ⟨0, h4, by simp only [he]; exact ⟨h1, h2, h3⟩, rfl⟩

theorem joined_class_two : ClassChosen Params.default (readJoin (joinBytes 0)).classSet 0xFF 2 :=
  ⟨[7, 6, 5, 4, 3], [1, 0], rfl, by decide, by decide⟩

theorem witness_JoinOffersTerms :
    (readJoin (joinBytes 0)).hint = 0 ∧ (readJoin (joinBytes 0)).more = false
      ∧ ClassChosen Params.default (readJoin (joinBytes 0)).classSet 0xFF 2
      ∧ EntryTaken (asked (inPhase .active) 254 .join (joinBytes 0)) none 0 1
          (causeCreated ||| causeTerms)
      ∧ Placed (asked (inPhase .active) 254 .join (joinBytes 0)) someone 0 none 0 1 := by
  refine ⟨by decide, by decide, joined_class_two, Or.inr (Or.inl ⟨rfl, lowest_first ?_, rfl, rfl⟩),
    Or.inr ⟨rfl, identity_unheld_reset someone, joined_address_one⟩⟩
  exact congrArg Entry.state (entry_reset 0)

/-- Resolution onto a HELD target, and with no target. -/
theorem witness_JoinOffersTerms_target :
    context (engaged held { collecting with target := some 0 }) 0
        = some { collecting with target := some 0 }
      ∧ (∀ o, collecting.stage ≠ .offered o)
      ∧ TargetSettled (engaged held { collecting with target := some 0 })
          { collecting with target := some 0 } (some 0)
      ∧ TargetSettled (engaged held collecting) collecting none
      ∧ held.state = .held ∧ held.leased = true
      ∧ EntryTaken (engaged held collecting) (some 0) 0 1 (causeState ||| causeTerms)
      ∧ Placed (engaged held collecting) someone 0 (some 0) 0 7
      ∧ (entry (engaged held collecting) 0).state ≠ .reserved := by
  refine ⟨context_first _ _, (by intro o h; cases h), target_settled (by decide) rfl (by decide) rfl,
    Or.inr ⟨(by intro i h; cases h), rfl⟩, rfl, by decide, Or.inl ⟨rfl, rfl, rfl⟩, Or.inl ⟨rfl, ?_, ?_⟩,
    ?_⟩
  · exact holds_identity .active (e := held) (by decide) rfl
  · exact holds_address .active (e := held) (by decide) rfl
  · rw [show entry (engaged held collecting) 0 = held from entry_first .active held]; decide

/-- The refusals of resolution: no class; no address where one address is granted and held; no entry; and
an identity that another entry holds. -/
theorem witness_JoinOffersTerms_refusals :
    (∀ cls, ¬ ClassChosen Params.default 0 0xFF cls)
      ∧ (∀ a, ¬ AddressChosen
          { engaged bound collecting with phase.params.grantLow := 7, phase.params.grantHigh := 7 } 0 a)
      ∧ (∀ i, (entry fullOfLegacy i).state ≠ .free ∧ (entry fullOfLegacy i).state ≠ .held)
      ∧ AddressUnheld fullOfLegacy 1
      ∧ (∃ i, Reclaimed fullOfHeld i) ∧ (∀ i, (entry fullOfHeld i).state ≠ .free)
      ∧ Lowest (fun j => (entry (engaged held collecting) j).state = .free) 1
      ∧ (0 : Index) ≠ 1 ∧ (entry (engaged held collecting) 0).occupied = true
      ∧ (entry (engaged held collecting) 0).identity = some collecting.identity := by
  have he : entry (engaged held collecting) 0 = held := entry_first .active held
  refine ⟨fun cls h => ?_, fun a h => ?_, fun i => ?_, fun i _ => ?_,
    ⟨0, lowest_first ⟨?_, fun k _ => ?_⟩⟩, fun i => ?_, ⟨?_, fun j hj => ?_⟩, by decide, ?_, ?_⟩
  · obtain ⟨_, _, _, h, _⟩ := h; simp at h
  · have hb : ∀ b, 7 ≤ b → b ≤ 7 → ¬ AddressUnheld (engaged bound collecting) b := by
      intro b h1 h2 hu
      have e0 : entry (engaged bound collecting) 0 = bound := entry_first .active bound
      exact hu 0 (by rw [e0]; decide) (by rw [e0, Nat.le_antisymm h2 h1]; rfl)
    rcases h with ⟨h, _⟩ | ⟨_, ⟨h1, h2, h3⟩, _⟩
    · exact h rfl
    · exact hb a h1 h2 h3
  · rw [entry_fullOfLegacy]; simp [legacy]
  · rw [entry_fullOfLegacy]; simp
  · rw [entry_fullOfHeld]; rfl
  · rw [entry_fullOfHeld, entry_fullOfHeld]
  · rw [entry_fullOfHeld]; simp [held]
  · exact congrArg Entry.state (entry_other .active held (i := 1) (by decide))
  · have : j = 0 := Fin.ext (Nat.lt_one_iff.1 hj)
    simp only [this, he]; decide
  · rw [he]; decide
  · rw [he]; rfl

/-- An EXTEND of a window page of 16: turn, more, page kind 2, page length 1. -/
def extendBytes (turn more : Byte) : List Byte := identityBytes someone ++ [turn, more, 2, 1, 16]

theorem witness_ExtendTakesPage :
    Front (asked (engaged bound collecting) 254 .extend (extendBytes 1 1))
        ⟨254, true, .extend, extendBytes 1 1⟩ []
      ∧ 12 ≤ (extendBytes 1 1).length
      ∧ HoldsContext (asked (engaged bound collecting) 254 .extend (extendBytes 1 1)) 0 collecting
      ∧ collecting.identity = payloadIdentity (extendBytes 1 1)
      ∧ collecting.stage = .collecting 200000
      ∧ (byteAt (extendBytes 1 1) 8).toNat = collecting.lastTurn + 1
      ∧ readPage (extendBytes 1 1) = some (.window 16) ∧ collecting.pagesTaken ≠ 6
      ∧ byteAt (extendBytes 1 1) 9 ≠ 0 ∧ byteAt (extendBytes 1 0) 9 = 0
      ∧ (byteAt (extendBytes 0 1) 8).toNat = collecting.lastTurn
      ∧ (byteAt (extendBytes 2 1) 8).toNat ≠ collecting.lastTurn
      ∧ (byteAt (extendBytes 2 1) 8).toNat ≠ collecting.lastTurn + 1
      ∧ readPage (identityBytes someone ++ [1, 1, 2, 1, 65]) = none
      ∧ 12 ≤ (identityBytes someone ++ [1, 1, 2, 0]).length
      ∧ ({ collecting with pagesTaken := 6, lastTurn := 6 } : Exchange).pagesTaken = 6
      ∧ (byteAt (extendBytes 7 1) 8).toNat = 6 + 1 := by
  exact ⟨rfl, by decide, holds_collecting _, by decide, rfl, by decide, by decide, by decide,
    by decide, by decide, by decide, by decide, by decide, by decide, by decide, rfl, by decide⟩

/-- An EXTEND that meets no context, one that probes, one that has offered, and one that is too short. -/
theorem witness_ExtendTakesPage_others :
    (∀ k p, NoContext (asked (withOne .active bound) 254 k p) someone)
      ∧ payloadIdentity (extendBytes 0 1) = someone
      ∧ HoldsContext (engaged bound probe) 0 probe ∧ probe.checking = true ∧ probe.lastTurn = 0
      ∧ HoldsContext (engaged reserved offering) 0 offering ∧ offering.stage = .offered offer
      ∧ offering.lastTurn = 0 ∧ (byteAt (extendBytes 0 1) 8).toNat = 0
      ∧ (byteAt (extendBytes 1 1) 8).toNat ≠ 0
      ∧ ((extendBytes 1 1).take 11).length < 12 := by
  exact ⟨fun _ _ => no_context rfl _, by decide, holds_probe _, rfl, rfl, holds_offering, rfl, rfl,
    by decide, by decide, by decide⟩

/-- The three kinds of page (R72), a window and a group one beyond their ranges, and a page whose length
is not that of its bytes. -/
theorem witness_ExtendTakesPage_kinds :
    readPage (identityBytes someone ++ [1, 1, 1, 2, 13, 0]) = some (.groups [13, 0])
      ∧ readPage (identityBytes someone ++ [1, 1, 2, 1, 64]) = some (.window 64)
      ∧ readPage (identityBytes someone ++ [1, 1, 3, 2, 0x20, 0x7E]) = some (.label [0x20, 0x7E])
      ∧ [[1, 1, 14], [1, 2, 3, 3], [2, 1, 0], [2, 1, 65], [3, 1, 0x1F], [3, 0], [4, 0], [2, 2, 8]].map
          (fun l : List Byte => readPage (identityBytes someone ++ 1 :: 1 :: l))
          = List.replicate 8 none := by
  decide

/-- SUSPEND of the part with one COLLECTING context and an empty queue. -/
theorem witness_SuspendClosesCollecting :
    Ready (engaged bound collecting) ∧ Framed 0x05 (frame 0x05 [])
      ∧ (engaged bound collecting).phase.phase = .active ∧ (inPhase .suspended).phase.phase ≠ .active
      ∧ collectingNow (engaged bound collecting) 0 = true
      ∧ counter (engaged bound collecting) .refusals < 65527
      ∧ (engaged bound collecting).port.queue.length ≤ 8
      ∧ ContextsUnique (engaged bound collecting)
      ∧ ∀ m ∈ (engaged bound collecting).port.queue.tail, ∀ x k, m.answer ≠ .refuse x k .suspended := by
  refine ⟨ready_idle rfl, framed (by decide), rfl, by decide, ?_, by decide, by decide,
    fun c d x y hc hd _ => ?_, fun m hm => by cases hm⟩
  · simp [collectingNow, context_first, collecting, exchange]
  · rw [(context_only hc).1, (context_only hd).1]

/-- An AGREE: turn, accept, class. -/
def agreeBytes (turn accept cls : Byte) : List Byte := identityBytes someone ++ [turn, accept, cls]

theorem witness_AgreeBindsOrDeclines :
    Front (asked (engaged reserved offering) 254 .agree (agreeBytes 1 1 2))
        ⟨254, true, .agree, agreeBytes 1 1 2⟩ []
      ∧ (agreeBytes 1 1 2).length = 11 ∧ (byteAt (agreeBytes 1 1 7) 10).toNat ≤ 7
      ∧ HoldsContext (asked (engaged reserved offering) 254 .agree (agreeBytes 1 1 2)) 0 offering
      ∧ offering.identity = payloadIdentity (agreeBytes 1 1 2)
      ∧ offering.stage = .offered offer
      ∧ entry (asked (engaged reserved offering) 254 .agree (agreeBytes 1 1 2)) offer.entry = reserved
      ∧ byteAt (agreeBytes 1 1 2) 9 ≠ 0
      ∧ (byteAt (agreeBytes 1 1 2) 8).toNat = offer.turn
      ∧ (byteAt (agreeBytes 1 1 2) 10).toNat = offer.cls.val
      ∧ byteAt (agreeBytes 0 0 7) 9 = 0
      -- another turn, and another class
      ∧ (byteAt (agreeBytes 2 1 2) 8).toNat ≠ offer.turn
      ∧ (byteAt (agreeBytes 1 1 3) 10).toNat ≠ offer.cls.val := by
  exact ⟨rfl, by decide, by decide, holds_offering, by decide, rfl, entry_first .active reserved,
    by decide, by decide, by decide, by decide, by decide, by decide⟩

/-- An AGREE before any TERMS, one without a context, and ones whose content is in error. -/
theorem witness_AgreeBindsOrDeclines_others :
    HoldsContext (engaged bound collecting) 0 collecting ∧ (∀ o, collecting.stage ≠ .offered o)
      ∧ HoldsContext (engaged bound probe) 0 probe ∧ (∀ o, probe.stage ≠ .offered o)
      ∧ (∀ e, NoContext (withOne .active e) someone)
      ∧ payloadIdentity (agreeBytes 1 1 2) = someone
      ∧ HoldsIdentity (withOne .active bound) 0 someone ∧ entry (withOne .active bound) 0 = bound
      ∧ bound.state = .bound ∧ bound.origin = some .negotiated ∧ bound.terms = some ⟨2, 8, [3]⟩
      ∧ (byteAt (agreeBytes 1 1 2) 10).toNat = 2 ∧ bound.address = some 7 ∧ bound.lease = some 100
      -- no entry, one in its grace, one adopted, and one of another class
      ∧ IdentityUnheld State.reset someone
      ∧ HoldsIdentity (withOne .active { bound with state := .lapsing }) 0 someone
      ∧ HoldsIdentity (withOne .active { bound with origin := some .adopted }) 0 someone
      ∧ (byteAt (agreeBytes 1 1 3) 10).toNat ≠ 2
      ∧ 7 < (byteAt (agreeBytes 1 1 8) 10).toNat ∧ (agreeBytes 1 1 2).dropLast.length ≠ 11 := by
  exact ⟨holds_collecting _, (by intro o h; cases h), holds_probe _, (by intro o h; cases h),
    fun _ => no_context rfl _, by decide, holds_identity _ (by decide) rfl, entry_first _ _, rfl, rfl,
    rfl, by decide, rfl, rfl, identity_unheld_reset _, holds_identity _ (by decide) rfl,
    holds_identity _ (by decide) rfl, by decide, by decide, by decide⟩

/-- Identity and incarnation, as LEAVE and REPLY carry them. -/
def tenBytes (incarnation : Byte) : List Byte := identityBytes someone ++ [0, incarnation]

theorem probed : ProbedBy (engaged bound probe) 0 0 :=
  ⟨⟨probe, context_first _ _, by decide, rfl⟩, fun _ _ h _ _ => (context_only h).1⟩

/-- The events that end or expire a binding under a probe, whose context then goes on. -/
theorem witness_probe_gone :
    GoneThen (engaged bound probe) 0 (resolveTerms 0) ∧ Ready (engaged bound probe)
      ∧ entry (engaged bound probe) 0 = bound
      ∧ GoneThen (engaged disputed probe) 0 (resolveTerms 0)
      ∧ entry (engaged disputed probe) 0 = disputed
      ∧ GoneThen (asked (engaged bound probe) 7 .leave (identityBytes someone ++ [0, 9])) 0
          (resolveTerms 0) := by
  refine ⟨Or.inr ⟨0, probed, rfl⟩, ready_idle rfl, entry_first .active bound, Or.inr ⟨0, ?_, rfl⟩,
    entry_first .active disputed, Or.inr ⟨0, probed, rfl⟩⟩
  exact ⟨⟨probe, context_first _ _, by decide, rfl⟩, fun _ _ h _ _ => (context_only h).1⟩

theorem witness_ReplyDecidesProbe :
    Front (asked (engaged bound probe) 7 .reply (tenBytes 9)) ⟨7, true, .reply, tenBytes 9⟩ []
      ∧ HoldsAddress (asked (engaged bound probe) 7 .reply (tenBytes 9)) 0 7
      ∧ context (asked (engaged bound probe) 7 .reply (tenBytes 9)) 0 = some probe
      ∧ ProbedBy (asked (engaged bound probe) 7 .reply (tenBytes 9)) 0 0
      ∧ entry (asked (engaged bound probe) 7 .reply (tenBytes 9)) 0 = bound ∧ bound.live = true
      ∧ bound.dispute.duplicate = false ∧ bound.identity = some (payloadIdentity (tenBytes 9))
      ∧ bound.incarnation = some (word16At (tenBytes 9) 8)
      ∧ probe.incarnation ≠ word16At (tenBytes 11) 8
      -- the joiner's incarnation, which is not the entry's
      ∧ bound.incarnation ≠ some (word16At (tenBytes 10) 8)
      ∧ probe.incarnation = word16At (tenBytes 10) 8
      -- a stranger's identity
      ∧ bound.identity ≠ some (payloadIdentity (List.replicate 10 0))
      ∧ AddressUnheld (asked (engaged bound probe) 8 .reply (tenBytes 9)) 8
      ∧ Unprobed (withOne .active bound) 0 ∧ HoldsAddress (withOne .active bound) 0 7 := by
  exact ⟨rfl, holds_address .active (e := bound) (by decide) rfl, context_first _ _, probed,
    entry_first .active bound, by decide, by decide,
    by decide, by decide, by decide, by decide, by decide, by decide,
    address_unheld .active (e := bound) (by decide), unprobed rfl 0,
    holds_address _ (by decide) rfl⟩

/-- Resolution that probes its target, and one that has no target. -/
theorem witness_ReplyDecidesProbe_check :
    context (engaged bound probe) 0 = some probe ∧ TargetSettled (engaged bound probe) probe (some 0)
      ∧ probe.probeNeeded = true ∧ bound.live = true ∧ bound.incarnation ≠ some probe.incarnation
      ∧ bound.address = some 7
      ∧ context (engaged bound collecting) 0 = some collecting
      ∧ TargetSettled (engaged bound collecting) collecting none := by
  exact ⟨context_first _ _, target_settled (by decide) rfl (by decide) rfl, rfl, by decide, by decide,
    rfl, context_first _ _, Or.inr ⟨(by intro i h; cases h), rfl⟩⟩

/-! ### Witnesses: renewal -/

/-- A KEEP: class 2, window 8, lease 200, one group. -/
def keepBytes : List Byte := tenBytes 9 ++ [2, 8, 0, 200, 1, 3]

/-- The contents of a FIND and of a KEEP that break no rule. -/
theorem witness_request_contents :
    ¬ ContentError .find findBytes ∧ ¬ ContentError .keep keepBytes := by
  simp only [ContentError]
  decide

/-- The same entry in its grace. -/
def lapsing : Entry := { bound with state := .lapsing, remaining := some 1 }

theorem witness_KeepAnsweredByEntry :
    (∀ s, Front (asked s 7 .keep keepBytes) ⟨7, true, .keep, keepBytes⟩ [])
      ∧ HoldsAddress (asked (withOne .active bound) 7 .keep keepBytes) 0 7
      ∧ HoldsAddress (asked (withOne .active lapsing) 7 .keep keepBytes) 0 7
      ∧ bound.live = true ∧ lapsing.live = true ∧ lapsing.state = .lapsing ∧ bound.leased = true
      ∧ bound.identity = some (payloadIdentity keepBytes)
      ∧ bound.incarnation = some (word16At keepBytes 8)
      ∧ Unprobed (asked (withOne .active bound) 7 .keep keepBytes) 0
      ∧ ({ bound with identity := some 1 } : Entry).identity ≠ some (payloadIdentity keepBytes)
      ∧ bound.dispute.collision = false
      ∧ fixed.live = true ∧ fixed.origin = some .static
      ∧ fixed.identity = some (payloadIdentity keepBytes)
      ∧ AddressUnheld (asked State.reset 7 .keep keepBytes) 7
      ∧ (asked (inPhase .active) 7 .keep keepBytes).phase.phase ≠ .settling := by
  exact ⟨fun _ => rfl, holds_address .active (e := bound) (by decide) rfl,
    holds_address .active (e := lapsing) (by decide) rfl, by decide, by decide, rfl, by decide,
    by decide, by decide, unprobed rfl 0, by decide, rfl, by decide, rfl,
    by decide, address_unheld_reset 7, by decide⟩

/-- A KEEP under a probe of its entry, under another incarnation, and at entries that are not live. -/
theorem witness_KeepAnsweredByEntry_others :
    ProbedBy (asked (engaged bound probe) 7 .keep keepBytes) 0 0
      ∧ HoldsAddress (asked (engaged bound probe) 7 .keep keepBytes) 0 7
      ∧ context (asked (engaged bound probe) 7 .keep keepBytes) 0 = some probe
      ∧ bound.dispute.duplicate = false
      -- an entry of another incarnation, and a joiner that has the KEEP's or not
      ∧ ({ bound with incarnation := some 10 } : Entry).incarnation ≠ some (word16At keepBytes 8)
      ∧ ({ probe with incarnation := 9 } : Exchange).incarnation = word16At keepBytes 8
      ∧ probe.incarnation ≠ word16At keepBytes 8
      ∧ HoldsAddress (withOne .active held) 0 7 ∧ held.state = .held ∧ held.heldCause = some .left
      ∧ held.identity = some (payloadIdentity keepBytes)
      ∧ ({ held with identity := some 1 } : Entry).identity ≠ some (payloadIdentity keepBytes)
      ∧ HoldsAddress (withOne .active reserved) 0 7 ∧ reserved.state = .reserved := by
  exact ⟨probed, holds_address .active (e := bound) (by decide) rfl, context_first _ _, rfl,
    by decide, by decide, by decide, holds_address _ (by decide) rfl, rfl, rfl, by decide,
    by decide, holds_address _ (by decide) rfl, rfl⟩

theorem witness_KeepAdopted :
    Front (asked (inPhase .settling) 239 .keep keepBytes) ⟨239, true, .keep, keepBytes⟩ []
      ∧ (asked (inPhase .settling) 239 .keep keepBytes).phase.phase = .settling
      ∧ (inPhase .settling).phase.params.adoption = true
      ∧ AddressUnheld (asked (inPhase .settling) 239 .keep keepBytes) 239
      ∧ (∀ x, IdentityUnheld (asked (inPhase .settling) 239 .keep keepBytes) x)
      ∧ (∀ x, verdict (asked (inPhase .settling) 239 .keep keepBytes) x = some ⟨0xFF, none⟩)
      ∧ (0xFF : ClassSet).getLsbD (readKeep keepBytes).cls.val = true
      ∧ Lowest (fun j : Index =>
          (entry (asked (inPhase .settling) 239 .keep keepBytes) j).state = .free) 0 := by
  exact ⟨rfl, rfl, rfl, address_unheld_reset 239, identity_unheld_reset, fun _ => rfl, by decide,
    lowest_first (congrArg Entry.state (entry_reset 0))⟩

/-- The part in SETTLING with adoption on or off, and with a set of classes offered. -/
def settlingWith (adoption : Bool) (offered : ClassSet) : State :=
  { inPhase .settling with phase.params.adoption := adoption, phase.params.offered := offered }

/-- The tests of adoption, each with those before it passed, and the entry reclaimed. -/
theorem witness_KeepAdopted_refusals :
    ¬ (1 ≤ (0 : Nat)) ∧ ¬ ((240 : Nat) ≤ 239)
      ∧ (settlingWith false 255).phase.params.adoption = false
      ∧ (∀ a, AddressUnheld (settlingWith true 0xFB) a)
      ∧ (∀ x, IdentityUnheld (settlingWith true 0xFB) x)
      ∧ HoldsIdentity (withOne .settling held) 0 (readKeep keepBytes).identity
      ∧ AddressUnheld (withOne .settling held) 8
      ∧ verdict { inPhase .settling with phase.params.defaultAdmit := false } someone = none
      ∧ verdict
          { inPhase .settling with admission.filter := [⟨0, 0, .admitCapped, some 0xFB, none⟩] } someone
          = some ⟨0xFB, none⟩
      ∧ (0xFB : ClassSet).getLsbD (readKeep keepBytes).cls.val = false
      ∧ (settlingWith true 0xFB).phase.params.offered.getLsbD (readKeep keepBytes).cls.val = false
      ∧ (∀ i, (entry { fullOfLegacy with phase.phase := .settling } i).state ≠ .free
          ∧ (entry { fullOfLegacy with phase.phase := .settling } i).state ≠ .held)
      ∧ AddressUnheld { fullOfLegacy with phase.phase := .settling } 1
      ∧ EntryTaken { fullOfHeld with phase.phase := .settling } none 0 2
          (causeReleased ||| causeCreated ||| causeTerms)
      ∧ AddressUnheld { fullOfHeld with phase.phase := .settling } 1
      ∧ IdentityUnheld { fullOfHeld with phase.phase := .settling } someone := by
  have hh := witness_AddStaticChecksAndReclaims_fields.2.2.2.2.2
  refine ⟨by decide, by decide, rfl, address_unheld_reset, identity_unheld_reset,
    holds_identity _ (by decide) (by decide), address_unheld _ (by decide), rfl, by decide,
    by decide, by decide, fun i => ?_, fun i _ => ?_,
    Or.inr (Or.inr ⟨rfl, fun i => ?_, hh, rfl, rfl⟩), fun i _ => ?_, fun i _ => ?_⟩
  · change (entry fullOfLegacy i).state ≠ .free ∧ (entry fullOfLegacy i).state ≠ .held
    rw [entry_fullOfLegacy]; simp [legacy]
  · change (entry fullOfLegacy i).address ≠ some 1
    rw [entry_fullOfLegacy]; simp
  · change (entry fullOfHeld i).state ≠ .free
    rw [entry_fullOfHeld]; simp [held]
  · change (entry fullOfHeld i).address ≠ some 1
    rw [entry_fullOfHeld]; simp
  · exact witness_AddStaticChecksAndReclaims.2.2.2.2.2.2.2.1 i ‹_›

/-- The steps of the lease clamp at their ends: below min lease and at it, at max lease and above it,
and a cap below and at the bounded lease. -/
theorem witness_KeepAdopted_clamp :
    Params.default.minLease ≤ Params.default.maxLease ∧ 9 < Params.default.minLease
      ∧ Params.default.minLease ≤ 10 ∧ 600 ≤ Params.default.maxLease ∧ Params.default.maxLease < 601
      ∧ [(0, none), (9, none), (10, none), (600, none), (601, none), (0, some 119), (0, some 120)].map
          (fun r : Nat × Option Nat => clampLease Params.default r.1 r.2)
          = [120, 10, 10, 600, 600, 119, 120] := by
  decide

theorem witness_LeaveEndsBinding :
    (∀ s, Front (asked s 7 .leave (tenBytes 9)) ⟨7, true, .leave, tenBytes 9⟩ [])
      ∧ HoldsAddress (asked (withOne .active bound) 7 .leave (tenBytes 9)) 0 7
      ∧ HoldsAddress (asked (withOne .active held) 7 .leave (tenBytes 9)) 0 7
      ∧ bound.leased = true ∧ bound.live = true ∧ held.leased = true ∧ held.state = .held
      ∧ held.heldCause = some .left
      ∧ bound.identity = some (payloadIdentity (tenBytes 9)) ∧ held.identity = bound.identity
      ∧ bound.incarnation = some (word16At (tenBytes 9) 8) ∧ held.incarnation = bound.incarnation
      ∧ (withOne .active bound).phase.params.hold ≠ 0
      ∧ ({ withOne .active bound with phase.params.hold := 0 } : State).phase.params.hold = 0
      ∧ GoneThen (asked (withOne .active bound) 7 .leave (tenBytes 9)) 0 id
      -- turned away: another incarnation, a HELD entry that its station did not leave, and no entry
      ∧ bound.incarnation ≠ some (word16At (tenBytes 10) 8)
      ∧ ({ held with heldCause := some .expired } : Entry).heldCause ≠ some .left
      ∧ held.live = false
      ∧ AddressUnheld (asked State.reset 7 .leave (tenBytes 9)) 7 := by
  exact ⟨fun _ => rfl, holds_address .active (e := bound) (by decide) rfl,
    holds_address .active (e := held) (by decide) rfl, by decide, by decide, by decide, rfl, rfl,
    by decide, rfl, by decide, rfl, by decide, rfl, Or.inl ⟨unprobed rfl 0, rfl⟩, by decide,
    by decide, by decide, address_unheld_reset 7⟩

/-! ### Witnesses: the lease clock and the timers -/

theorem witness_LeaseTickCountsDown :
    (∃ s d, s.lease.nextTick = some d ∧ entry s 0 = bound ∧ s.lease.owed[(0 : Index)] = 0)
      -- two remaining owe none and one remaining owes none; three, two and one remaining owe one
      ∧ (∃ s d, s.lease.nextTick = some d ∧ entry s 0 = held ∧ s.lease.owed[(0 : Index)] = 1)
      ∧ (∀ n, ({ bound with remaining := some n } : Entry).timed = true)
      ∧ 0 + 2 ≤ 2 ∧ 1 < 0 + 2 ∧ 1 + 2 ≤ 3 ∧ 2 < 1 + 2
      ∧ held.timed = true ∧ held.remaining = some 1 ∧ fixed.timed = false
      ∧ (∃ s : State, s.lease.nextTick = some 1000000 ∧ s.phase.phase = .settling
          ∧ s.phase.settle = some 2)
      ∧ ∃ s : State, s.phase.phase = .settling ∧ s.phase.settle = some 1
          ∧ s.phase.settleOwed = true := by
  refine ⟨⟨{ withOne .active bound with lease.nextTick := some 1000000 }, 1000000, rfl,
      entry_first .active bound, by simp [withOne, withEntry, inPhase, State.reset]⟩,
    ⟨{ withOne .active held with
        lease.nextTick := some 1000000, lease.owed := State.reset.lease.owed.set 0 1 }, 1000000, rfl,
      entry_first .active held, by simp⟩,
    fun _ => rfl, by decide, by decide, by decide, by decide, by decide, rfl, by decide, ?_, ?_⟩
  · exact ⟨{ inPhase .settling with lease.nextTick := some 1000000, phase.settle := some 2 },
      rfl, rfl, rfl⟩
  · exact ⟨{ inPhase .settling with phase.settle := some 1, phase.settleOwed := true }, rfl, rfl, rfl⟩

/-- The part with one entry that owes a count-down. -/
def owing (e : Entry) : State :=
  { withOne .active e with lease.owed := State.reset.lease.owed.set 0 1 }

theorem witness_ExpiriesMoveEntries :
    (∀ e, (owing e).lease.owed[(0 : Index)] = 0 + 1) ∧ (∀ e, entry (owing e) 0 = e)
      ∧ (∀ e, GoneThen (owing e) 0 id)
      ∧ ({ bound with remaining := some 1 } : Entry).leased = true ∧ bound.state = .bound
      ∧ Params.default.grace ≠ 0
      ∧ ({ owing bound with phase.params.grace := 0 } : State).phase.params.grace = 0
      ∧ lapsing.leased = true ∧ lapsing.state = .lapsing
      ∧ lapsing.remaining = some 1 ∧ Params.default.hold ≠ 0
      ∧ held.leased = true ∧ held.remaining = some 1
      ∧ legacy.origin = some .legacy ∧ legacy.state = .bound ∧ legacy.remaining = some 1 := by
  refine ⟨fun e => ?_, fun e => entry_first .active e, fun e => Or.inl ⟨unprobed rfl 0, rfl⟩,
    by decide, rfl, by decide, rfl, by decide, rfl, rfl, by decide, by decide, rfl, rfl, rfl, rfl⟩
  simp [owing]

theorem witness_TimersExpire :
    context (engaged bound collecting) 0 = some collecting
      ∧ collecting.stage = .collecting 200000
      ∧ context (engaged reserved offering) 0 = some offering ∧ offering.stage = .offered offer
      ∧ (entry (engaged reserved offering) offer.entry).state = .reserved
      ∧ context (engaged bound probe) 0 = some probe
      ∧ probe.stage = .checking 1 (.running 100000) ∧ probe.target = some 0
      ∧ (entry (engaged bound probe) 0).address = some 7
      ∧ 2 < (engaged bound probe).phase.params.probeTries
      ∧ (engaged bound probe).phase.params.probeTries ≤ 3
      ∧ ({ probe with stage := .checking 3 (.running 100000) } : Exchange).stage
          = .checking 3 (.running 100000)
      ∧ ∃ s : State, s.port.silence = some 5 := by
  refine ⟨context_first _ _, rfl, context_first _ _, rfl, ?_, context_first _ _, rfl, rfl, ?_,
    by decide, by decide, rfl, { State.reset with port.silence := some 5 }, rfl⟩
  · exact congrArg Entry.state (entry_first .active reserved)
  · exact congrArg Entry.address (entry_first .active bound)

/-- The probe of entry 0 with all its tries used up. -/
def lastProbe : Exchange := { probe with stage := .checking 3 (.running 100000) }

/-- The last expiry gives entry 0 to the joiner, whose incarnation is 10. -/
theorem witness_TimersExpire_superseded :
    context (engaged bound lastProbe) 0 = some lastProbe
      ∧ lastProbe.stage = .checking 3 (.running 100000) ∧ lastProbe.target = some 0
      ∧ entry (engaged bound lastProbe) 0 = bound ∧ bound.address = some 7
      ∧ (engaged bound lastProbe).phase.params.probeTries ≤ 3
      ∧ bound.live = true ∧ bound.identity = some someone ∧ bound.incarnation = some 9
      ∧ (entry (resolveTerms 0 { engaged bound lastProbe with now := max 0 100000 }) 0).state
          = .reserved
      -- a target that is live no longer
      ∧ held.address = some 7 ∧ held.live = false := by
  exact ⟨context_first _ _, rfl, rfl, entry_first .active bound, rfl, by decide, rfl, rfl, rfl,
    by decide +kernel, rfl, rfl⟩

/-- R103: the record of the holder whose binding the joiner superseded. -/
theorem test_last_expiry_records_holder :
    (entry (probeExpires 0 (engaged bound lastProbe)) 0).superseded = some ⟨9, false⟩ := by
  decide +kernel

/-- The entry bound to the joiner, with the record of the holder that it superseded, late or not. -/
def anew (late : Bool) : Entry :=
  { bound with incarnation := some 10, superseded := some ⟨9, late⟩ }

/-- The part with that entry. -/
def lost (late : Bool) : State := withOne .active (anew late)

theorem entry_lost (late : Bool) (k : ReqKind) (p : List Byte) :
    entry (asked (lost late) 7 k p) 0 = anew late := entry_first .active (anew late)

theorem unprobed_lost (late : Bool) (k : ReqKind) (p : List Byte) :
    Unprobed (asked (lost late) 7 k p) 0 := by
  intro c x h
  simp [context, asked, lost, withOne, withEntry, inPhase, State.reset] at h

theorem witness_KeepAnsweredByEntry_superseded :
    Unprobed (asked (lost true) 7 .keep keepBytes) 0
      ∧ HoldsAddress (asked (lost true) 7 .keep keepBytes) 0 7
      ∧ LostBy (asked (lost true) 7 .keep keepBytes) 0 (payloadIdentity keepBytes)
          (word16At keepBytes 8) true
      ∧ ¬ LostBy (asked (lost false) 7 .keep keepBytes) 0 (payloadIdentity keepBytes)
          (word16At keepBytes 8) true := by
  refine ⟨unprobed_lost true .keep keepBytes, holds_address .active (e := anew true) (by decide) rfl,
    ?_, ?_⟩ <;> unfold LostBy <;> rw [entry_lost] <;> decide

/-- A late REPLY of the holder that lost the entry, and a stranger's. -/
theorem witness_ReplyDecidesProbe_late :
    Unprobed (asked (lost false) 7 .reply (tenBytes 9)) 0
      ∧ HoldsAddress (asked (lost false) 7 .reply (tenBytes 9)) 0 7
      ∧ LostBy (asked (lost false) 7 .reply (tenBytes 9)) 0 (payloadIdentity (tenBytes 9))
          (word16At (tenBytes 9) 8) false
      ∧ ∀ late, ¬ LostBy (asked (lost false) 7 .reply (tenBytes 11)) 0 (payloadIdentity (tenBytes 11))
          (word16At (tenBytes 11) 8) late := by
  refine ⟨unprobed_lost false .reply (tenBytes 9),
    holds_address .active (e := anew false) (by decide) rfl, ?_, ?_⟩ <;>
    unfold LostBy <;> rw [entry_lost] <;> decide

/-- The answers in a state's queue. -/
def answers (s : State) : List Answer := s.port.queue.map QueuedMessage.answer

/-- R103, R35: the KEEP of a holder that answered late is refused NOT_YOURS, its KEEP after that REJOIN, and
REJOIN is what a holder gets that has not answered. -/
theorem test_late_holder_not_yours :
    let late := takeReply ⟨7, true, .reply, tenBytes 9⟩ (lost false)
    let first := takeKeep ⟨7, true, .keep, keepBytes⟩ late
    answers first = [.refuse someone .keep .notYours]
      ∧ answers (takeKeep ⟨7, true, .keep, keepBytes⟩ first)
          = [.refuse someone .keep .notYours, .refuse someone .keep .rejoin]
      ∧ answers (takeKeep ⟨7, true, .keep, keepBytes⟩ (lost false))
          = [.refuse someone .keep .rejoin] := by
  decide +kernel

/-- R103: a KEEP answered UNKNOWN is the next KEEP too, and a freed entry keeps no record. -/
theorem test_loss_forgotten :
    (entry (takeKeep ⟨8, true, .keep, keepBytes⟩ (lost true)) 0).superseded = none
      ∧ (entry (freeEntry 0 (lost true)) 0).superseded = none := by
  decide +kernel

/-! ### Witnesses: the answer queue and the transmitter -/

/-- A queued CLOSED to a destination. -/
def queued (destination : Nat) (ws : List Waiter) : QueuedMessage :=
  ⟨destination, .closed someone, 0, 0, ws⟩

/-- A queued REVOKED notice to address 7. -/
def queuedNotice (ws : List Waiter) : QueuedMessage := ⟨7, .revoked someone .host, 0, 0, ws⟩

/-- The part in ACTIVE with a queue and a transmitter. -/
def sending (q : List QueuedMessage) (tx : Transmitter) : State :=
  { inPhase .active with port.queue := q, port.tx := tx }

theorem witness_AnswerQueueTakesMessage :
    (inPhase .offline).phase.phase = .offline ∧ (sending [] .idle).port.queue = []
      -- 48 bit times of 4 microseconds, and one short of them
      ∧ GapOver { sending [] .idle with now := 192 } ∧ ¬ GapOver { sending [] .idle with now := 191 }
      ∧ (sending [queued 1 [], queued 2 []] (.deferring none)).port.queue
          = queued 1 [] :: [] ++ queued 2 [] :: []
      ∧ (queued 2 []).destination = 2 ∧ (queued 2 []).answer = .closed someone
      ∧ (List.replicate 15 (queued 2 [])).length = 15
      ∧ (∀ b ∈ List.replicate 15 (queued 2 []),
          ¬ (b.destination = 3 ∧ b.answer = .closed someone))
      ∧ (List.replicate 14 (queued 2 [])).length < 15 := by
  refine ⟨rfl, rfl, ⟨rfl, by decide⟩, fun h => absurd h.2 (by decide), rfl, rfl, rfl, by decide,
    fun b hb h => ?_, by decide⟩
  rw [List.eq_of_mem_replicate hb] at h
  exact absurd h.1 (by decide)

/-- The probe of entry 0 whose CHECK, number 4, is not sent yet. -/
def awaiting : Exchange := { probe with stage := .checking 1 (.awaiting 4) }

/-- The CHECK of context 0, in the queue. -/
def queuedCheck : QueuedMessage := ⟨7, .check someone, 0, 0, [.context 0 4]⟩

/-- A CHECK meets a full queue, is over its lifetime behind the head, and is at its twelfth collision. -/
theorem witness_dropped_check :
    context { engaged bound awaiting with
        port.queue := List.replicate 16 (queued 2 []), port.tx := .deferring none } 0 = some awaiting
      ∧ awaiting.stage = .checking 1 (.awaiting 4)
      ∧ (∀ b ∈ List.replicate 15 (queued 2 []), ¬ (b.destination = 7 ∧ b.answer = .check someone))
      ∧ context { engaged bound awaiting with
          port.queue := [queued 1 [], queuedCheck], port.tx := .sending 0 } 0 = some awaiting
      ∧ (queued 1 []).waiters = [] ∧ queuedCheck.waiters = [.context 0 4]
      ∧ Params.default.answerLifetime * 10000 < 1000001 - queuedCheck.produced
      ∧ context { engaged bound awaiting with
          port.queue := [{ queuedCheck with collisions := 12 }], port.tx := .jamming 64 } 0
          = some awaiting
      ∧ 12 ≤ ({ queuedCheck with collisions := 12 } : QueuedMessage).collisions := by
  refine ⟨context_first _ _, rfl, fun b hb h => ?_, context_first _ _, rfl, rfl, by decide,
    context_first _ _, by decide⟩
  rw [List.eq_of_mem_replicate hb] at h
  exact absurd h.1 (by decide)

/-- A notice meets a queue with one place left, and a full one. -/
theorem witness_NoticeHoldsCommand_queue :
    (sending (List.replicate 15 (queued 2 [])) (.deferring none)).port.queue.length < 16
      ∧ (sending [] .idle).phase.phase ≠ .offline
      ∧ 16 ≤ (sending (List.replicate 16 (queued 2 [])) (.deferring none)).port.queue.length
      ∧ ∀ b ∈ (sending (List.replicate 16 (queued 2 [])) (.deferring none)).port.queue.tail,
          ¬ (b.destination = 7 ∧ b.answer = .revoked someone .evicted) := by
  refine ⟨by decide, by decide, by decide, fun b hb h => ?_⟩
  rw [List.eq_of_mem_replicate (List.mem_of_mem_tail hb)] at h
  exact absurd h.1 (by decide)

/-- The line quiet for a number of microseconds. -/
def quiet (n : Nat) : State := { sending [queued 1 []] (.deferring none) with now := n }

theorem witness_AttemptWaitsForGap :
    (∀ n, (quiet n).port.tx = .deferring none ∧ (quiet n).port.carrier = false)
      ∧ (∃ s : State, s.port.tx = .deferring none ∧ s.port.carrier = true)
      -- of 4 microseconds each: 35 bit times, 36, 47 and 48
      ∧ [143, 144, 191, 192].map (fun n =>
          (quiet n).port.quietCarried
            + ((quiet n).now - (quiet n).port.quietFrom) / (1000 / (quiet n).phase.params.busRate))
          = [35, 36, 47, 48]
      ∧ (∃ s : State, s.port.tx = .backingOff 1024 ∧ GapOver { s with now := max s.now 1024 })
      ∧ ∃ s : State, s.port.tx = .backingOff 1024 ∧ ¬ GapOver { s with now := max s.now 1024 } := by
  refine ⟨fun _ => ⟨rfl, rfl⟩, ⟨{ quiet 0 with port.carrier := true }, rfl, rfl⟩, by decide,
    ⟨sending [queued 1 []] (.backingOff 1024), rfl, rfl, by decide⟩,
    { sending [queued 1 []] (.backingOff 1024) with port.carrier := true }, rfl, fun h => ?_⟩
  cases h.1

/-- A rise of carrier during an own attempt, and in a transmitter that waits for no gap. -/
theorem witness_AttemptWaitsForGap_carrier :
    (sending [queued 1 []] (.sending 0)).port.carrier = false
      ∧ attemptUnderWay (sending [queued 1 []] (.sending 0)) = true
      ∧ attemptUnderWay (sending [queued 1 []] (.jamming 64)) = true
      ∧ (∀ tx ∈ [Transmitter.idle, .backingOff 1024],
          ¬ attemptUnderWay (sending [] tx) ∧ (sending [] tx).port.tx ≠ .deferring none) := by
  decide

theorem witness_AttemptSentRemovesHead :
    (sending [queued 1 []] (.sending 0)).port.tx = .sending 0
      ∧ (sending [queued 1 []] (.sending 0)).port.queue = queued 1 [] :: []
      ∧ (sending [queued 1 []] (.sending 0)).port.surviving = false
      ∧ TurnsTo (sending [queued 1 []] (.sending 0)) 448 [] [] .idle
      ∧ TurnsTo (sending [queued 1 [], queued 2 []] (.sending 0)) 1000000 [queued 2 []] [queued 2 []]
          (.deferring none)
      ∧ (queued 1 []).waiters = [] ∧ (queued 1 [.engine]).waiters = [.engine]
      ∧ (busy (.notice 0 5) 0x0C).host.engine = .executing ⟨1, 0x0C, [], .notice 0 5⟩
      ∧ (queued 1 [.context 0 4]).waiters = [.context 0 4]
      ∧ context (engaged bound { probe with stage := .checking 1 (.awaiting 4) }) 0
          = some { probe with stage := .checking 1 (.awaiting 4) }
      -- a next message a microsecond over its lifetime
      ∧ Params.default.answerLifetime * 10000 < 1000001 - (queued 2 []).produced
      -- a notice as old
      ∧ Params.default.answerLifetime * 10000 < 1000001 - (queuedNotice [.engine]).produced
      ∧ (queuedNotice [.engine]).waiters = [.engine] :=
  ⟨rfl, rfl, rfl, Or.inl ⟨rfl, rfl, rfl⟩, Or.inr ⟨_, _, rfl, by decide, rfl, rfl⟩, rfl, rfl, rfl, rfl,
    context_first _ _, by decide, by decide, rfl⟩

/-- The attempt that survived DISABLE or PORT-RESTART, the command still in hand. -/
def survivor (code : Byte) (p : Phase) (tx : Transmitter) : State :=
  { sending [queued 1 []] tx with
    phase.phase := p, port.surviving := true
    host.engine := .executing ⟨1, code, [], .attemptEnd⟩ }

theorem witness_surviving_attempts :
    ∀ tx, (survivor 0x04 .offline tx).port.surviving = true
      ∧ (survivor 0x04 .offline tx).port.tx = tx
      ∧ (survivor 0x04 .offline tx).port.queue = queued 1 [] :: []
      ∧ (survivor 0x04 .offline tx).phase.phase = .offline
      ∧ (survivor 0x04 .offline tx).host.engine = .executing ⟨1, 0x04, [], .attemptEnd⟩
      ∧ (survivor 0x17 .active tx).host.engine = .executing ⟨1, 0x17, [], .attemptEnd⟩
      ∧ ∀ time, TurnsTo (survivor 0x04 .offline tx) time [] [] .idle :=
  fun _ => ⟨rfl, rfl, rfl, rfl, rfl, rfl, fun _ => Or.inl ⟨rfl, rfl, rfl⟩⟩

/-- An attempt that survived PORT-RESTART, with room in the inbound buffer and without. -/
theorem witness_MessageReceived_surviving :
    let s (n : Nat) : State := { survivor 0x17 .active (.sending 0) with
      port.inbound := List.replicate n ⟨254, true, .join, []⟩ }
    (∀ n, attemptUnderWay (s n) ∧ (s n).port.surviving = true)
      ∧ (s 3).phase.phase ≠ .offline ∧ (s 3).port.inbound.length = 3
      ∧ (s 4).phase.phase ≠ .offline ∧ 4 ≤ (s 4).port.inbound.length :=
  ⟨fun _ => ⟨rfl, rfl⟩, by decide, rfl, by decide, by decide⟩

/-- R135: a JOIN heard during that attempt is buffered, and one heard during any other is not. -/
theorem test_request_during_attempts :
    (∃ t, exec (.receiveMessage (message 0 254 1 (joinBytes 0)) 0)
          (survivor 0x17 .active (.sending 0)) = .next t ∧ t.port.inbound.length = 1)
      ∧ ∃ t, exec (.receiveMessage (message 0 254 1 (joinBytes 0)) 0)
          (sending [queued 1 []] (.sending 0)) = .next t ∧ t.port.inbound = [] :=
  ⟨⟨_, rfl, by decide +kernel⟩, _, rfl, by decide +kernel⟩

theorem witness_CollisionJamsAndBacksOff :
    (sending [queued 1 []] (.sending 0)).port.queue = queued 1 [] :: []
      ∧ (sending [queued 1 []] (.sending 0)).port.tx = .sending 0
      ∧ (∀ b, (sending [queued 1 []] (.deferring none)).port.tx ≠ .sending b)
      ∧ (sending [queued 1 []] (.jamming 64)).port.tx = .jamming 64
      ∧ (sending [queued 1 []] (.jamming 64)).port.surviving = false
      ∧ ({ queued 1 [] with collisions := 11 } : QueuedMessage).collisions < 12
      ∧ 12 ≤ ({ queued 1 [] with collisions := 12 } : QueuedMessage).collisions
      ∧ TurnsTo (sending [queued 1 [], queued 2 []] (.jamming 64)) 64 [queued 2 []] [queued 2 []]
          (.deferring none)
      -- a notice at its twelfth collision
      ∧ 12 ≤ ({ queuedNotice [.engine] with collisions := 12 } : QueuedMessage).collisions
      ∧ ({ queuedNotice [.engine] with collisions := 12 } : QueuedMessage).waiters = [.engine] :=
  ⟨rfl, rfl, (by intro b h; cases h), rfl, rfl, by decide, by decide,
    Or.inr ⟨_, _, rfl, by decide, rfl, rfl⟩, by decide, rfl⟩

end Sys2Proof.Tests
end

section
/-! The admission unit (spec/03): reading and returning its records, its four host commands, and the
verdict of the filter list. -/

namespace Sys2Proof.Machine

-- One lemma is elaborated after another, which keeps the check's memory low.
set_option Elab.async false

/-! ### Numbers in bytes -/

/-- Reading on from a number already read puts it before the number of the bytes left. -/
theorem foldl_beNat (bytes : List Byte) (m : Nat) :
    bytes.foldl (fun n b => n * 256 + b.toNat) m = m * 256 ^ bytes.length + beNat bytes := by
  induction bytes generalizing m with
  | nil => simp [beNat]
  | cons b rest ih =>
    rw [beNat, List.foldl_cons, List.foldl_cons, ih, ih (0 * 256 + b.toNat), List.length_cons]
    ring

theorem beNat_cons (b : Byte) (bytes : List Byte) :
    beNat (b :: bytes) = b.toNat * 256 ^ bytes.length + beNat bytes := by
  rw [beNat, List.foldl_cons, foldl_beNat, Nat.zero_mul, Nat.zero_add]

@[simp] theorem beBytes_length (n v : Nat) : (beBytes n v).length = n := by
  induction n with
  | zero => rfl
  | succ n ih => simp [beBytes, ih]

/-- The bytes that spell a number are read back as what fits in them. -/
theorem beNat_beBytes (n v : Nat) : beNat (beBytes n v) = v % 256 ^ n := by
  induction n with
  | zero => simp [beBytes, beNat, Nat.mod_one]
  | succ n ih =>
    have hsplit : v % 256 ^ (n + 1) = v % 256 ^ n + 256 ^ n * (v / 256 ^ n % 256) := by
      rw [Nat.pow_succ, Nat.mod_mul]
    rw [beBytes, beNat_cons, ih, beBytes_length, BitVec.toNat_ofNat, hsplit, Nat.mul_comm,
      Nat.add_comm]

/-- Eight bytes that spell an identity are read back as that identity. -/
theorem identityAt_of_field {bytes : List Byte} {k : Nat} {x : Identity}
    (h : fieldAt bytes k 8 = identityBytes x) : identityAt bytes k = x := by
  have hn : natAt bytes k 8 = x.toNat := by
    rw [natAt, ← fieldAt, h, identityBytes, beNat_beBytes]
    exact Nat.mod_eq_of_lt x.isLt
  rw [identityAt, hn, BitVec.ofNat_toNat, BitVec.setWidth_eq]

/-! ### Records of the two lists -/

/-- A rule is returned in the layout of FILTER-PUT (R173, R186). -/
theorem ruleBytes_layout (n : Nat) (q : FilterRule) : RuleLayout n q (ruleBytes n q) := by
  have hcode : byteAt (ruleBytes n q) 17 = oneByte q.verdict.code := rfl
  have hlease : fieldAt (ruleBytes n q) 19 2 = beBytes 2 (orZero q.leaseCap) := rfl
  refine ⟨rfl, rfl, identityAt_of_field rfl, identityAt_of_field rfl, ?_, rfl, ?_, ?_⟩
  · rw [hcode]
    cases q.verdict <;> rfl
  · intro h
    rw [hlease, h]
    rfl
  · intro m h
    rw [hlease, h]
    rfl

/-- Rules are returned each with its position in the list (R173). -/
theorem rulesFrom_eq (k : Nat) (rules : List FilterRule) :
    rulesFrom k rules = (rules.zipIdx k).flatMap (fun r => ruleBytes r.2 r.1) := by
  induction rules generalizing k with
  | nil => rfl
  | cons r rest ih => rw [rulesFrom, ih, List.zipIdx_cons, List.flatMap_cons]

/-- The elements from a place on keep their positions in the whole list. -/
theorem zipIdx_drop_take {α : Type} (l : List α) (k n : Nat) :
    ((l.drop k).take n).zipIdx k = (l.zipIdx.drop k).take n := by
  refine List.ext_getElem? fun i => ?_
  by_cases h : i < n <;> simp [h]

/-- Inserting at a position moves what stands from there on one position on. -/
theorem insertIdx_eq_take_cons_drop {α : Type} (x : α) {l : List α} {k : Nat} (h : k ≤ l.length) :
    l.insertIdx k x = l.take k ++ x :: l.drop k := by
  induction k generalizing l with
  | zero => rfl
  | succ k ih => cases l with
    | nil => simp at h
    | cons y l => simpa using ih (Nat.le_of_succ_le_succ h)

/-! ### The rule of FILTER-PUT, by its verdict byte -/

section ReadRule

variable {p : List Byte}

theorem readRule_admits (h : (byteAt p 17).toNat = 0) :
    readRule p =
      if byteAt p 18 = 0 ∧ natAt p 19 2 = 0 then
        some ⟨identityAt p 1, identityAt p 9, .admits, none, none⟩
      else none := by
  simp only [readRule, h]

theorem readRule_refuse (h : (byteAt p 17).toNat = 1) :
    readRule p =
      if byteAt p 18 = 0 ∧ natAt p 19 2 = 0 then
        some ⟨identityAt p 1, identityAt p 9, .refuse, none, none⟩
      else none := by
  simp only [readRule, h]

theorem readRule_admitCapped (h : (byteAt p 17).toNat = 2) :
    readRule p =
      if byteAt p 18 ≠ 0 ∧ natAt p 19 2 ≤ 4095 then
        some ⟨identityAt p 1, identityAt p 9, .admitCapped, some (byteAt p 18),
          if natAt p 19 2 = 0 then none else some (natAt p 19 2)⟩
      else none := by
  simp only [readRule, h]

theorem readRule_unknown (h : 2 < (byteAt p 17).toNat) : readRule p = none := by
  obtain ⟨n, hn⟩ : ∃ n, (byteAt p 17).toNat = n + 3 := Nat.exists_eq_add_of_le' h
  simp only [readRule, hn]

/-- The verdict byte names one of the three verdicts or none. -/
theorem verdictByte_cases (v : Nat) : v = 0 ∨ v = 1 ∨ v = 2 ∨ 2 < v := by omega

/-- R50's test 1 fails exactly for these fields. -/
theorem readRule_eq_none_iff :
    readRule p = none ↔
      2 < (byteAt p 17).toNat
        ∨ ((byteAt p 17).toNat = 2 ∧ (byteAt p 18 = 0 ∨ 4095 < natAt p 19 2))
        ∨ ((byteAt p 17).toNat < 2 ∧ (byteAt p 18 ≠ 0 ∨ natAt p 19 2 ≠ 0)) := by
  rcases verdictByte_cases (byteAt p 17).toNat with h | h | h | h
  · simp [readRule_admits h, h, imp_iff_not_or]
  · simp [readRule_refuse h, h, imp_iff_not_or]
  · simp [readRule_admitCapped h, h, imp_iff_not_or]
  · simp [readRule_unknown h, h]

/-- A rule that passes R50's test 1 is what its bytes spell. -/
theorem readRule_fields {r : FilterRule} (h : readRule p = some r) :
    r.pattern = identityAt p 1 ∧ r.mask = identityAt p 9
      ∧ ((byteAt p 17).toNat = 0 → r.verdict = .admits)
      ∧ ((byteAt p 17).toNat = 1 → r.verdict = .refuse)
      ∧ ((byteAt p 17).toNat = 2 → r.verdict = .admitCapped)
      ∧ r.classCap = (if (byteAt p 17).toNat = 2 then some (byteAt p 18) else none)
      ∧ r.leaseCap =
          (if (byteAt p 17).toNat = 2 ∧ natAt p 19 2 ≠ 0 then some (natAt p 19 2) else none) := by
  rcases verdictByte_cases (byteAt p 17).toNat with hv | hv | hv | hv
  · rw [readRule_admits hv, Option.ite_none_right_eq_some, Option.some.injEq] at h
    obtain ⟨_, rfl⟩ := h
    simp [hv]
  · rw [readRule_refuse hv, Option.ite_none_right_eq_some, Option.some.injEq] at h
    obtain ⟨_, rfl⟩ := h
    simp [hv]
  · rw [readRule_admitCapped hv, Option.ite_none_right_eq_some, Option.some.injEq] at h
    obtain ⟨_, rfl⟩ := h
    simp [hv]
  · rw [readRule_unknown hv] at h
    cases h

end ReadRule

/-! ### Taking the four commands -/

/-- A command taken that completes at once with a new admission unit changes that and the host port. -/
theorem finish_accept_admission (f : CommandFrame) (st : Status) (d : List Byte) (s : State)
    (a : AdmissionUnit) :
    finish st d { accept f s with admission := a } = completed f st d s { s with admission := a } :=
  rfl

section Taken

variable {f : CommandFrame} {s : State}

theorem exec_filterPut (hs : Ready s) (hf : Framed 0x07 f) (hl : f.params.length = 21) :
    exec (.filterPut f) s = .next (filterPut f.params (accept f s)) :=
  congrArg Host.Outcome.next (takeCommand_taken hs hf (by simp [hl]) (by omega))

theorem exec_filterRemove (hs : Ready s) (hf : Framed 0x08 f) (hl : f.params.length = 1) :
    exec (.filterRemove f) s = .next (filterRemove f.params (accept f s)) :=
  congrArg Host.Outcome.next (takeCommand_taken hs hf (by simp [hl]) (by omega))

theorem exec_filterRead (hs : Ready s) (hf : Framed 0x09 f) (hl : f.params.length = 1) :
    exec (.filterRead f) s = .next (filterRead f.params (accept f s)) :=
  congrArg Host.Outcome.next (takeCommand_taken hs hf (by simp [hl]) (by omega))

theorem exec_readDeferrals (hs : Ready s) (hf : Framed 0x12 f) (hl : f.params.length = 1) :
    exec (.readDeferrals f) s = .next (readDeferrals f.params (accept f s)) :=
  congrArg Host.Outcome.next (takeCommand_taken hs hf (by simp [hl]) (by omega))

end Taken

/-! ### FILTER-PUT once taken: its three tests and the insertion (R50) -/

section FilterPut

variable {f : CommandFrame} {s : State} {p : List Byte} {r : FilterRule}

theorem filterPut_bad_rule (h : readRule p = none) :
    filterPut p (accept f s) = completed f .range [] s s := by
  simp only [filterPut, h, finish_accept]

theorem filterPut_bad_position (h : s.admission.filter.length < (byteAt p 0).toNat) :
    filterPut p (accept f s) = completed f .range [] s s := by
  cases hr : readRule p with
  | none => exact filterPut_bad_rule hr
  | some r =>
    rw [← finish_accept]
    simp only [filterPut, hr]
    exact if_pos h

theorem filterPut_full (hr : readRule p = some r)
    (hk : (byteAt p 0).toNat ≤ s.admission.filter.length) (hn : 24 ≤ s.admission.filter.length) :
    filterPut p (accept f s) = completed f .listFull [] s s := by
  rw [← finish_accept]
  simp only [filterPut, hr]
  exact (if_neg (Nat.not_lt.2 hk)).trans (if_pos hn)

theorem filterPut_inserts (hr : readRule p = some r)
    (hk : (byteAt p 0).toNat ≤ s.admission.filter.length) (hn : s.admission.filter.length < 24) :
    filterPut p (accept f s) =
      completed f .ok [oneByte (s.admission.filter.length + 1)] s
        { s with admission.filter := s.admission.filter.insertIdx (byteAt p 0).toNat r } := by
  rw [insertIdx_eq_take_cons_drop r hk, ← finish_accept_admission]
  simp only [filterPut, hr]
  exact (if_neg (Nat.not_lt.2 hk)).trans (if_neg (Nat.not_le.2 hn))

end FilterPut

/-! ### The three commands by position, once taken (R51, R58) -/

section ByPosition

variable {f : CommandFrame} {s : State} {k : Byte}

theorem filterRemove_removes (h : k.toNat < s.admission.filter.length) :
    filterRemove [k] (accept f s) =
      completed f .ok [oneByte (s.admission.filter.length - 1)] s
        { s with admission.filter := s.admission.filter.eraseIdx k.toNat } := by
  rw [← finish_accept_admission]
  exact if_neg (Nat.not_le.2 h)

theorem filterRemove_bad_position (h : s.admission.filter.length ≤ k.toNat) :
    filterRemove [k] (accept f s) = completed f .range [] s s := by
  rw [← finish_accept]
  exact if_pos h

theorem filterRead_returns (h : k.toNat ≤ s.admission.filter.length) :
    filterRead [k] (accept f s) =
      completed f .ok
        (oneByte s.admission.filter.length ::
          ((s.admission.filter.zipIdx.drop k.toNat).take 5).flatMap (fun r => ruleBytes r.2 r.1))
        s s := by
  rw [← finish_accept, ← zipIdx_drop_take, ← rulesFrom_eq]
  exact if_neg (Nat.not_lt.2 h)

theorem filterRead_bad_position (h : s.admission.filter.length < k.toNat) :
    filterRead [k] (accept f s) = completed f .range [] s s := by
  rw [← finish_accept]
  exact if_pos h

theorem readDeferrals_returns (h : k.toNat ≤ s.admission.deferrals.length) :
    readDeferrals [k] (accept f s) =
      completed f .ok
        (oneByte s.admission.deferrals.length ::
          ((s.admission.deferrals.drop k.toNat).take 12).flatMap Deferral.bytes) s s := by
  rw [← finish_accept, List.flatMap_def]
  exact if_neg (Nat.not_lt.2 h)

theorem readDeferrals_bad_position (h : s.admission.deferrals.length < k.toNat) :
    readDeferrals [k] (accept f s) = completed f .range [] s s := by
  rw [← finish_accept]
  exact if_pos h

end ByPosition

/-! ### The verdict for an identity (R45) -/

/-- A rule matches when the identity and the pattern agree at every bit set in the mask. -/
theorem maskMatches_iff (pattern mask x : Identity) :
    maskMatches pattern mask x = true ↔
      ∀ n, n < 64 → mask.getLsbD n = true → x.getLsbD n = pattern.getLsbD n := by
  rw [maskMatches, beq_iff_eq, BitVec.eq_of_getLsbD_eq_iff]
  refine forall₂_congr fun n _ => ?_
  rw [BitVec.getLsbD_and, BitVec.getLsbD_and]
  cases mask.getLsbD n <;> simp

/-- The first rule that matches decides. -/
theorem verdict_first_match {s : State} {x : Identity} {before after : List FilterRule}
    {r : FilterRule} (hl : s.admission.filter = before ++ r :: after)
    (hb : ∀ q ∈ before, maskMatches q.pattern q.mask x ≠ true)
    (hr : maskMatches r.pattern r.mask x = true) : verdict s x = r.caps := by
  have hfind : s.admission.filter.find? (fun q => maskMatches q.pattern q.mask x) = some r :=
    List.find?_eq_some_iff_append.2
      ⟨hr, before, after, hl, fun q hq => by simpa using hb q hq⟩
  simp only [verdict, hfind]

/-- Where no rule matches the default decides. -/
theorem verdict_no_match {s : State} {x : Identity}
    (h : ∀ q ∈ s.admission.filter, maskMatches q.pattern q.mask x ≠ true) :
    verdict s x = if s.phase.params.defaultAdmit then some ⟨0xFF, none⟩ else none := by
  have hfind : s.admission.filter.find? (fun q => maskMatches q.pattern q.mask x) = none :=
    List.find?_eq_none.2 h
  simp only [verdict, hfind]

/-! ### The obligations -/

/-- Settles O23: the rule's tests by its verdict byte, then FILTER-PUT by its three tests in order. -/
theorem filterPutInserts : Obligations.FilterPutInserts := by
  intro f s hs hf hl
  rw [exec_filterPut hs hf hl]
  refine ⟨readRule_eq_none_iff, ?range, ?full, fun r => readRule_fields, ?inserts⟩
  case range =>
    rintro (hr | hk)
    · rw [filterPut_bad_rule hr]
    · rw [filterPut_bad_position hk]
  case full =>
    intro hr hk hn
    obtain ⟨r, hr⟩ := Option.ne_none_iff_exists'.1 hr
    rw [filterPut_full hr hk hn]
  case inserts =>
    intro r hr hk hn
    rw [filterPut_inserts hr hk hn]

/-- Settles O24: each command by its position in or out of order, then the two layouts. -/
theorem listCommands : Obligations.ListCommands := by
  rintro ⟨tag, code, length, params⟩ s k hs rfl
  refine ⟨fun hf hk => ?_, fun hf hk => ?_, fun hf hk => ?_, fun hf hk => ?_, fun hf hk => ?_,
    fun hf hk => ?_, ruleBytes_layout, fun q => ⟨rfl, identityAt_of_field rfl, rfl⟩⟩
  · rw [exec_filterRemove hs hf rfl, filterRemove_removes hk]
  · rw [exec_filterRemove hs hf rfl, filterRemove_bad_position hk]
  · rw [exec_filterRead hs hf rfl, filterRead_returns hk]
  · rw [exec_filterRead hs hf rfl, filterRead_bad_position hk]
  · rw [exec_readDeferrals hs hf rfl, readDeferrals_returns hk]
  · rw [exec_readDeferrals hs hf rfl, readDeferrals_bad_position hk]

/-- Settles O25: matching is agreement under the mask, and the search stops at the first match. -/
theorem firstMatchingRuleDecides : Obligations.FirstMatchingRuleDecides := by
  intro s x
  simp only [← maskMatches_iff]
  refine ⟨fun before r after hl hb hr => ?_, verdict_no_match⟩
  rw [verdict_first_match hl hb hr, FilterRule.caps]
  cases r.verdict <;> rfl

end Sys2Proof.Machine
end

section
/-! ABORT (spec/06, spec/10): what it does to the engine, by what the command in hand waits for. -/

namespace Sys2Proof.Machine

-- One lemma is elaborated after another, which keeps the check's memory low.
set_option Elab.async false

/-! ### The arbiter where no LOOKUP waits (R109) -/

section Arbiter

variable {s : State}

theorem arbitrate_of_walking {w : Walk} (h : s.lookup.walk = some w) : arbitrate s = s := by
  simp only [arbitrate, h]

theorem arbitrate_of_none_waiting (hw : s.lookup.walk = none) (hb : s.lookup.busWaiting = [])
    (hh : s.lookup.hostSlot = none) : arbitrate s = s := by
  simp only [arbitrate, hw, hb, hh]

theorem arbitrate_of_find_waiting {q : FindRequest} {rest : List FindRequest}
    (hw : s.lookup.walk = none) (hb : s.lookup.busWaiting = q :: rest)
    (hh : s.lookup.hostSlot = none) : arbitrate s = startBus q rest s := by
  simp only [arbitrate, hw, hb, hh]

end Arbiter

/-! ### The data and the queue that ABORT leaves -/

theorem lookupData_eq_flatMap (n : Nat) (found : List LookupRecord) :
    lookupData n found =
      [oneByte n, oneByte found.length] ++ found.flatMap LookupRecord.bytes := by
  rw [lookupData, List.flatMap_def]

theorem noticeData_pending (i : Index) (g : Word16) :
    noticeData i g .pending = [oneByte i.val] ++ word16Bytes g ++ [3] := rfl

theorem dropEngineWaiter_eq (q : List QueuedMessage) :
    dropEngineWaiter q =
      q.map (fun m => { m with waiters := m.waiters.filter (· ≠ .engine) }) := by
  have htest : (fun w : Waiter => w != .engine) = (fun w => decide (w ≠ .engine)) :=
    funext fun w => Bool.eq_iff_iff.2 (by rw [bne_iff_ne, decide_eq_true_iff])
  rw [dropEngineWaiter, htest]

/-! ### ABORT on the engine, by its state and its work (R167) -/

/-- A port that listens takes ABORT at its code byte (R161). -/
theorem exec_abort {s t : State} (hs : Listening s)
    (h : abort { s with host.transaction := .filler } = t) : exec .abort s = .next t := by
  refine congrArg Host.Outcome.next ?_
  obtain ⟨hwaits, _⟩ | ⟨_, htaken⟩ :=
    takeTransaction_cases (fun s => abort { s with host.transaction := .filler }) s
  · exact absurd hwaits hs
  · exact htaken.trans h

theorem abort_of_not_executing {s : State} (h : ∀ c, s.host.engine ≠ .executing c) :
    abort s = s := by
  cases he : s.host.engine with
  | idle => simp only [abort, he]
  | done r => simp only [abort, he]
  | executing c => exact absurd he (h c)

section Executing

variable {s : State} {c : CommandRecord}

theorem abort_of_attemptEnd (hc : s.host.engine = .executing c) (hw : c.work = .attemptEnd) :
    abort s = s := by
  simp only [abort, hc, hw]

/-- A REVOKE or a CONFIRM that waits for its notice goes on. -/
theorem abort_of_other_notice {i : Index} {g : Word16} (hc : s.host.engine = .executing c)
    (hw : c.work = .notice i g) (hcode : c.code ≠ 0x0B) : abort s = s := by
  simp only [abort, hc, hw, if_neg hcode]

/-- An EDIT that waits for its notice ends, and the engine waits for no message any more. -/
theorem abort_of_edit_notice {i : Index} {g : Word16} (hc : s.host.engine = .executing c)
    (hw : c.work = .notice i g) (hcode : c.code = 0x0B) :
    abort s =
      { s with
        host.engine := .done ⟨c.tag, .aborted, noticeData i g .pending⟩
        port.queue := dropEngineWaiter s.port.queue } := by
  simp only [abort, hc, hw, if_pos hcode]
  exact finish_executing _ _ hc

theorem abort_of_walk (hc : s.host.engine = .executing c) (hw : c.work = .walk) :
    abort s = abortLookup s := by
  simp only [abort, hc, hw]

/-- Out of its walk, a LOOKUP ends with what it has matched, and the arbiter decides (R116). -/
theorem abort_of_lookup_walking {r : LookupRequest} {i : Index} {l : List LookupRecord}
    (hc : s.host.engine = .executing c) (hwork : c.work = .walk)
    (hwalk : s.lookup.walk = some (.host r i l)) :
    abort s =
      arbitrate { s with
        host.engine := .done ⟨c.tag, .aborted, lookupData i.val l⟩
        lookup.walk := none } := by
  rw [abort_of_walk hc hwork]
  simp only [abortLookup, hwalk]
  exact congrArg arbitrate (finish_executing _ _ hc)

theorem abort_of_lookup_walking_alone {r : LookupRequest} {i : Index} {l : List LookupRecord}
    (hc : s.host.engine = .executing c) (hwork : c.work = .walk)
    (hwalk : s.lookup.walk = some (.host r i l)) (hslot : s.lookup.hostSlot = none)
    (hbus : s.lookup.busWaiting = []) :
    abort s =
      { s with
        host.engine := .done ⟨c.tag, .aborted, lookupData i.val l⟩
        lookup.walk := none } := by
  rw [abort_of_lookup_walking hc hwork hwalk]
  exact arbitrate_of_none_waiting rfl hbus hslot

theorem abort_of_lookup_walking_before_find {r : LookupRequest} {i : Index}
    {l : List LookupRecord} {q : FindRequest} {rest : List FindRequest}
    (hc : s.host.engine = .executing c) (hwork : c.work = .walk)
    (hwalk : s.lookup.walk = some (.host r i l)) (hslot : s.lookup.hostSlot = none)
    (hbus : s.lookup.busWaiting = q :: rest) :
    abort s =
      startBus q rest { s with host.engine := .done ⟨c.tag, .aborted, lookupData i.val l⟩ } := by
  rw [abort_of_lookup_walking hc hwork hwalk]
  exact arbitrate_of_find_waiting rfl hbus hslot

/-- Out of the slot, a LOOKUP ends with its own cursor, and the FIND's walk goes on (R116). -/
theorem abort_of_lookup_inSlot {r : LookupRequest} {b : FindRequest} {i : Index}
    {l : List FoundRecord} (hc : s.host.engine = .executing c) (hwork : c.work = .walk)
    (hwalk : s.lookup.walk = some (.bus b i l)) (hslot : s.lookup.hostSlot = some r) :
    abort s =
      { s with
        host.engine := .done ⟨c.tag, .aborted, lookupData r.cursor.val []⟩
        lookup.hostSlot := none } := by
  have hfreed : abort s =
      arbitrate
        (finish .aborted (lookupData r.cursor.val []) { s with lookup.hostSlot := none }) := by
    rw [abort_of_walk hc hwork]
    simp only [abortLookup, hwalk, hslot]
  rw [hfreed, arbitrate_of_walking (w := .bus b i l) (by simpa using hwalk)]
  exact finish_executing _ _ hc

end Executing

/-! ### The obligation -/

/-- Settles O41: by the engine's state, then by the work of the command that executes. -/
theorem abortEndsLookupOrEdit : Obligations.AbortEndsLookupOrEdit := by
  intro s hs
  refine ⟨fun hidle => exec_abort hs (abort_of_not_executing hidle), fun c hc => ?_⟩
  simp only [← lookupData_eq_flatMap, ← noticeData_pending, ← dropEngineWaiter_eq]
  refine ⟨fun r i l hwork hwalk hslot => ⟨fun hbus => ?walking, fun q rest hbus => ?find⟩,
    fun r b i l hwork hwalk hslot => ?inSlot, fun i g hwork hcode => ?edit, ?other⟩
  case walking =>
    exact exec_abort hs (abort_of_lookup_walking_alone hc hwork hwalk hslot hbus)
  case find =>
    exact exec_abort hs (abort_of_lookup_walking_before_find hc hwork hwalk hslot hbus)
  case inSlot => exact exec_abort hs (abort_of_lookup_inSlot hc hwork hwalk hslot)
  case edit => exact exec_abort hs (abort_of_edit_notice hc hwork hcode)
  case other =>
    rintro (hwork | ⟨i, g, hwork, hcode⟩)
    · exact exec_abort hs (abort_of_attemptEnd hc hwork)
    · exact exec_abort hs (abort_of_other_notice hc hwork hcode)

end Sys2Proof.Machine
end

section
/-! The interrupt (spec/09): the condition bit by bit, and its bit of the status word (R158, R166). -/

namespace Sys2Proof.Machine

-- One lemma is elaborated after another, which keeps the check's memory low.
set_option Elab.async false

/-! ### The condition and the output, from the cause sets and the enables -/

/-- A cause set holds an enabled cause exactly where its masked set is not empty. -/
theorem enabledCause_iff (causes enable : CauseSet) :
    (causes &&& enable != 0) = true ↔
      ∃ n, n < 5 ∧ causes.getLsbD n = true ∧ enable.getLsbD n = true := by
  rw [bne_iff_ne, Ne, BitVec.eq_of_getLsbD_eq_iff]
  simp

theorem interruptCondition_iff (s : State) :
    interruptCondition s = true ↔
      (∃ (i : Index) (n : Nat), n < 5 ∧ (s.change.entryCauses[i]).getLsbD n = true
          ∧ s.change.entryEnable.getLsbD n = true)
        ∨ ∃ n, n < 5 ∧ s.change.partCauses.getLsbD n = true
          ∧ s.change.partEnable.getLsbD n = true := by
  rw [interruptCondition, Bool.or_eq_true, List.any_eq_true, enabledCause_iff]
  simp only [enabledCause_iff, List.mem_finRange, true_and]

theorem interruptAsserted_iff (s : State) :
    interruptAsserted s = true ↔ s.change.master = true ∧ interruptCondition s = true := by
  rw [interruptAsserted, Bool.and_eq_true]

/-! ### The condition in the status word -/

theorem flagBit_eq_mul (b : Bool) (weight : Nat) : flagBit b weight = weight * b.toNat := by
  cases b <;> simp [flagBit]

theorem Phase.code_lt (p : Phase) : p.code < 4 := by
  cases p <;> simp [Phase.code]

theorem Engine.code_lt (e : Engine) : e.code < 4 := by
  cases e <;> simp [Engine.code]

/-- The phase and the engine stay below bit 4, and each flag above it is a multiple of 32. -/
theorem statusWord_interrupt (s : State) :
    (statusWord s).getLsbD 4 = interruptCondition s := by
  have hphase := s.phase.phase.code_lt
  have hengine := s.host.engine.code_lt
  simp only [statusWord, flagBit_eq_mul, BitVec.getLsbD_ofNat, Nat.testBit_eq_decide_div_mod_eq]
  cases interruptCondition s <;> simp <;> omega

/-! ### STATUS leaves the causes and the enables -/

theorem interruptCondition_takeStatus (s : State) :
    interruptCondition (takeStatus s) = interruptCondition s := rfl

/-- A port that listens takes STATUS at its code byte (R161). -/
theorem exec_status {s : State} (hs : Listening s) : exec .status s = .next (takeStatus s) := by
  refine congrArg Host.Outcome.next ?_
  obtain ⟨hwaits, _⟩ | ⟨_, htaken⟩ := takeTransaction_cases takeStatus s
  · exact absurd hwaits hs
  · exact htaken

/-! ### The obligation -/

/-- Settles O37: the condition bit by bit, the output from it, and the word that STATUS sends. -/
theorem interruptFollowsCauses : Obligations.InterruptFollowsCauses := fun s =>
  ⟨interruptCondition_iff s, interruptAsserted_iff s, fun hs =>
    ⟨takeStatus s, statusWord s, exec_status hs, rfl, statusWord_interrupt s,
      interruptCondition_takeStatus s⟩⟩

end Sys2Proof.Machine
end

section
/-! FLUSH (spec/11): the sweep over the table entry by entry, and the state in which the command
completes (R182). -/

namespace Sys2Proof.Machine

-- One lemma is elaborated after another, which keeps the check's memory low.
set_option Elab.async false

/-! ### One entry with its causes, before and after -/

theorem Entry.occupied_iff {e : Entry} : e.occupied = true ↔ e.state ≠ .free := by
  rw [Entry.occupied, bne_iff_ne]

/-- Entry `j` and its causes stand in `t` as in `s`. -/
def KeptAt (j : Index) (s t : State) : Prop :=
  entry t j = entry s j ∧ t.change.entryCauses[j] = s.change.entryCauses[j]

/-- From `s` to `t`, entry `j` is freed by one change request (R8, R13). -/
def ReleasedAt (j : Index) (s t : State) : Prop :=
  entry t j = Entry.freeAt ((entry s j).generation + 1)
    ∧ t.change.entryCauses[j] = s.change.entryCauses[j] ||| causeReleased

section Compose

variable {j : Index} {s t u : State}

theorem KeptAt.refl (j : Index) (s : State) : KeptAt j s s := ⟨rfl, rfl⟩

theorem KeptAt.trans (h : KeptAt j s t) (h' : KeptAt j t u) : KeptAt j s u :=
  ⟨h'.1.trans h.1, h'.2.trans h.2⟩

theorem KeptAt.trans_releasedAt (h : KeptAt j s t) (h' : ReleasedAt j t u) : ReleasedAt j s u := by
  obtain ⟨hentry, hcauses⟩ := h
  rwa [ReleasedAt, hentry, hcauses] at h'

theorem ReleasedAt.trans_keptAt (h : ReleasedAt j s t) (h' : KeptAt j t u) : ReleasedAt j s u :=
  ⟨h'.1.trans h.1, h'.2.trans h.2⟩

theorem ReleasedAt.state_free (h : ReleasedAt j s t) : (entry t j).state = .free := by
  rw [h.1, Entry.freeAt]

theorem KeptAt.occupied (h : KeptAt j s t) (ho : (entry s j).occupied = true) :
    (entry t j).occupied = true := by
  rwa [h.1]

end Compose

/-! ### One step of the sweep -/

theorem freeEntry_keptAt {i j : Index} (h : j ≠ i) (s : State) : KeptAt j s (freeEntry i s) := by
  have hval : i.val ≠ j.val := fun k => h (Fin.ext k.symm)
  refine ⟨?_, ?_⟩
  · rw [freeEntry, entry_changeEntry, if_neg h]
  · simp [freeEntry, hval]

theorem freeEntry_releasedAt {i : Index} {s : State} (h : (entry s i).occupied = true) :
    ReleasedAt i s (freeEntry i s) := by
  rw [freeEntry_released (Entry.occupied_iff.1 h)]
  refine ⟨?_, ?_⟩
  · simp [released, withCauses, withEntry, entry]
  · simp [released, withCauses, withEntry]

/-- An entry freed where it is occupied: one step of the sweep of `freeAll`. -/
def freeIfOccupied (i : Index) (s : State) : State :=
  if (entry s i).occupied then freeEntry i s else s

theorem freeIfOccupied_cases (i : Index) (s : State) :
    ((entry s i).occupied = true ∧ freeIfOccupied i s = freeEntry i s)
      ∨ ((entry s i).state = .free ∧ freeIfOccupied i s = s) := by
  by_cases h : (entry s i).occupied = true
  · exact .inl ⟨h, if_pos h⟩
  · exact .inr ⟨not_not.1 (mt Entry.occupied_iff.2 h), if_neg h⟩

theorem freeIfOccupied_releasedAt {i : Index} {s : State} (h : (entry s i).occupied = true) :
    ReleasedAt i s (freeIfOccupied i s) := by
  rw [freeIfOccupied, if_pos h]
  exact freeEntry_releasedAt h

/-- A step leaves every other entry, and a FREE one, as it is. -/
theorem freeIfOccupied_keptAt {i j : Index} {s : State} (h : j ≠ i ∨ (entry s j).state = .free) :
    KeptAt j s (freeIfOccupied i s) := by
  obtain ⟨ho, hs⟩ | ⟨_, hs⟩ := freeIfOccupied_cases i s
  · have hne : j ≠ i := by
      rintro rfl
      exact h.elim (· rfl) (Entry.occupied_iff.1 ho)
    rw [hs]
    exact freeEntry_keptAt hne s
  · rw [hs]
    exact KeptAt.refl j s

/-! ### The sweep over a list of entries -/

/-- The entries of a list freed in order, where they are occupied. -/
def freeEach (l : List Index) (s : State) : State := l.foldl (fun s i => freeIfOccupied i s) s

theorem freeAll_eq_freeEach (s : State) : freeAll s = freeEach (List.finRange 160) s := rfl

theorem freeEach_cons (i : Index) (l : List Index) (s : State) :
    freeEach (i :: l) s = freeEach l (freeIfOccupied i s) := rfl

theorem freeEach_keptAt {j : Index} (l : List Index) {s : State} (h : (entry s j).state = .free) :
    KeptAt j s (freeEach l s) := by
  induction l generalizing s with
  | nil => exact KeptAt.refl j s
  | cons i l ih =>
    have hstep : KeptAt j s (freeIfOccupied i s) := freeIfOccupied_keptAt (.inr h)
    exact hstep.trans (ih (by rw [hstep.1, h]))

/-- An occupied entry is kept up to its place in the list, released there, and FREE from then on. -/
theorem freeEach_releasedAt {j : Index} {l : List Index} {s : State} (hj : j ∈ l)
    (h : (entry s j).occupied = true) : ReleasedAt j s (freeEach l s) := by
  induction l generalizing s with
  | nil => exact absurd hj List.not_mem_nil
  | cons i l ih =>
    by_cases hij : j = i
    · subst hij
      have hstep := freeIfOccupied_releasedAt h
      exact hstep.trans_keptAt (freeEach_keptAt l hstep.state_free)
    · have hstep : KeptAt j s (freeIfOccupied i s) := freeIfOccupied_keptAt (.inl hij)
      exact hstep.trans_releasedAt (ih (List.mem_of_ne_of_mem hij hj) (hstep.occupied h))

/-- The sweep changes the table and the causes of entries alone. -/
theorem freeEach_frame (l : List Index) (s : State) :
    ∃ table causes, freeEach l s = { s with table := table, change.entryCauses := causes } := by
  induction l generalizing s with
  | nil => exact ⟨s.table, s.change.entryCauses, rfl⟩
  | cons i l ih =>
    obtain ⟨table, causes, hrest⟩ := ih (freeIfOccupied i s)
    refine ⟨table, causes, ?_⟩
    rw [freeEach_cons, hrest]
    obtain ⟨_, hs⟩ | ⟨_, hs⟩ := freeIfOccupied_cases i s
    · rw [hs]
      rfl
    · rw [hs]

/-! ### The sweep over the whole table (R24) -/

theorem freeAll_releasedAt {j : Index} {s : State} (h : (entry s j).occupied = true) :
    ReleasedAt j s (freeAll s) :=
  freeEach_releasedAt (List.mem_finRange j) h

theorem freeAll_keptAt {j : Index} {s : State} (h : (entry s j).state = .free) :
    KeptAt j s (freeAll s) :=
  freeEach_keptAt _ h

theorem freeAll_frame (s : State) :
    ∃ table causes, freeAll s = { s with table := table, change.entryCauses := causes } :=
  freeEach_frame _ s

theorem freeAll_host (s : State) : (freeAll s).host = s.host := by
  obtain ⟨table, causes, h⟩ := freeAll_frame s
  rw [h]

theorem occupiedCount_eq_countP (s : State) :
    occupiedCount s = (List.finRange 160).countP (fun i => (entry s i).occupied) :=
  List.countP_eq_length_filter.symm

/-! ### FLUSH on being taken -/

/-- A command taken, on whose way to completion the host port stays as the COMMAND left it. -/
theorem finish_of_host_eq_accept {f : CommandFrame} {s t : State} (st : Status) (d : List Byte)
    (h : t.host = (accept f s).host) : finish st d t = completed f st d s t := by
  simp [finish, h, completed, hostAfter]

theorem keptAt_completed {f : CommandFrame} {st : Status} {d : List Byte} {s t : State}
    (i : Index) : KeptAt i t (completed f st d s t) := ⟨rfl, rfl⟩

/-- The state in which FLUSH begins its sweep: the command taken and the deferral list empty. -/
def flushStart (f : CommandFrame) (s : State) : State :=
  { accept f s with admission.deferrals := [] }

section Flush

variable {f : CommandFrame} {s : State}

theorem entry_flushStart (i : Index) : entry (flushStart f s) i = entry s i := rfl

theorem exec_flush (hs : Ready s) (hf : Framed 0x16 f) (hp : f.params = []) :
    exec (.flush f) s = .next (flush (accept f s)) :=
  congrArg Host.Outcome.next (takeCommand_taken hs hf (by simp [hp]) (by simp [hp]))

theorem flush_outside_offline (h : s.phase.phase ≠ .offline) :
    flush (accept f s) = completed f .phase [] s s := by
  rw [← finish_accept]
  exact if_pos h

theorem flush_in_offline (h : s.phase.phase = .offline) :
    flush (accept f s) =
      completed f .ok [oneByte ((List.finRange 160).countP (fun i => (entry s i).occupied))] s
        (freeAll (flushStart f s)) := by
  rw [← occupiedCount_eq_countP]
  exact (if_neg (not_not.2 h)).trans (finish_of_host_eq_accept _ _ (freeAll_host _))

end Flush

/-! ### The obligation -/

/-- Settles O22: outside OFFLINE the refusal; in OFFLINE the sweep's effect on each entry, by whether
it is occupied, and its frame. -/
theorem flushFreesAll : Obligations.FlushFreesAll := by
  intro f s hs hf hp
  rw [exec_flush hs hf hp]
  refine ⟨fun h => by rw [flush_outside_offline h], fun h => ⟨_, rfl, ?_⟩⟩
  rw [flush_in_offline h]
  refine ⟨fun i ho => ?occupied, fun i hfree => ?free, rfl, ?frame⟩
  case occupied =>
    rw [← entry_flushStart (f := f)] at ho
    exact (freeAll_releasedAt ho).trans_keptAt (keptAt_completed i)
  case free =>
    rw [← entry_flushStart (f := f)] at hfree
    exact (freeAll_keptAt hfree).trans (keptAt_completed i)
  case frame =>
    obtain ⟨table, causes, hsweep⟩ := freeAll_frame (flushStart f s)
    rw [hsweep]
    rfl

end Sys2Proof.Machine
end

section
/-! Entries and values under the changes that commands make: an entry stays as its state and origin
say (R1), and what it holds stays in range. -/

namespace Sys2Proof.Machine

-- One lemma is elaborated after another, which keeps the check's memory low.
set_option Elab.async false

/-! ### The fields of an entry, by state and origin (R1, R3, R5) -/

section EntryFields

variable {e : Entry}

/-- Only a FREE entry's other fields depend on its generation, and they are absent. -/
theorem EntrySound.with_generation (h : EntrySound e) (g : Word16) :
    EntrySound { e with generation := g } := by
  obtain ⟨hfree, hrest⟩ := h
  refine ⟨fun hs => ?_, hrest⟩
  rw [hfree hs]
  rfl

theorem entrySound_freeAt (g : Word16) : EntrySound (Entry.freeAt g) := by
  simp [EntrySound, Entry.freeAt, Entry.leased, Entry.live, Entry.timed, Dispute.present]

theorem EntrySound.address_of_occupied (h : EntrySound e) (ho : e.occupied = true) :
    ∃ a, e.address = some a ∧ 1 ≤ a ∧ a ≤ 239 :=
  (h.2.1 (Entry.occupied_iff.1 ho)).2

theorem EntrySound.occupied_of_address {a : Nat} (h : EntrySound e) (ha : e.address = some a) :
    e.occupied = true := by
  refine Entry.occupied_iff.2 fun hs => ?_
  rw [h.1 hs] at ha
  simp [Entry.freeAt] at ha

theorem EntrySound.occupied_of_identity {x : Identity} (h : EntrySound e)
    (hx : e.identity = some x) : e.occupied = true := by
  refine Entry.occupied_iff.2 fun hs => ?_
  rw [h.1 hs] at hx
  simp [Entry.freeAt] at hx

theorem EntrySound.occupied_of_leased (h : EntrySound e) (hl : e.leased = true) :
    e.occupied = true := by
  refine Entry.occupied_iff.2 fun hs => ?_
  rw [h.1 hs] at hl
  cases hl

theorem EntrySound.leased_of_incarnation {n : Word16} (h : EntrySound e)
    (hn : e.incarnation = some n) : e.leased = true :=
  h.2.2.2.2.1.1 (by simp [hn])

theorem EntrySound.leased_of_reserved (h : EntrySound e) (hs : e.state = .reserved) :
    e.leased = true := by
  obtain ⟨_, _, _, _, _, _, _, _, _, _, _, _, hreserved, _⟩ := h
  simp [Entry.leased, hreserved hs]

theorem EntrySound.leased_of_superseded (h : EntrySound e) (hs : e.superseded.isSome = true) :
    e.leased = true := by
  obtain ⟨_, _, _, _, _, _, _, _, _, _, _, _, _, hsuperseded⟩ := h
  exact hsuperseded hs

end EntryFields

/-! ### The entries that change requests make are sound

Each new entry differs from a sound one in few fields; the clauses of `EntrySound` on these fields are
checked against its state and origin. -/

section NewEntries

variable {e : Entry}

theorem EntrySound.held (h : EntrySound e) (hl : e.leased = true) (hlive : e.live = true)
    (c : HeldCause) (n : Nat) :
    EntrySound { e with
      state := .held, heldCause := some c, remaining := some n, dispute := Dispute.empty } := by
  simp only [EntrySound, Entry.leased, Entry.live, Entry.timed, Dispute.present, Dispute.empty] at *
  grind

theorem EntrySound.lapsed (h : EntrySound e) (hl : e.leased = true) (hlive : e.live = true)
    (n : Nat) : EntrySound { e with state := .lapsing, remaining := some n } := by
  simp only [EntrySound, Entry.leased, Entry.live, Entry.timed, Dispute.present] at *
  grind

theorem EntrySound.renewed (h : EntrySound e) (hl : e.leased = true) (hlive : e.live = true)
    (n : Nat) : EntrySound (e.renewed n) := by
  simp only [EntrySound, Entry.renewed, Entry.leased, Entry.live, Entry.timed,
    Dispute.present] at *
  grind

/-- Reasons of a dispute stand in BOUND and LAPSING alone (R5). -/
theorem EntrySound.disputed (h : EntrySound e) (hlive : e.live = true) (d : Dispute) :
    EntrySound { e with dispute := d } := by
  simp only [EntrySound, Entry.leased, Entry.live, Entry.timed, Dispute.present] at *
  grind

theorem EntrySound.refreshed (h : EntrySound e) (ho : e.origin = some .legacy) (n : Nat) :
    EntrySound { e with remaining := some n } := by
  simp only [EntrySound, Entry.leased, Entry.live, Entry.timed, Dispute.present] at *
  grind

theorem EntrySound.countedDown (h : EntrySound e) (n : Nat) : EntrySound (e.countedDown n) := by
  simp only [EntrySound, Entry.countedDown, Entry.leased, Entry.live, Entry.timed,
    Dispute.present, Option.isSome_map] at *
  refine ⟨fun hs => ?_, h.2⟩
  rw [h.1 hs]
  rfl

theorem EntrySound.remembering (h : EntrySound e) (hl : e.leased = true) (r : Option Superseded) :
    EntrySound { e with superseded := r } := by
  have hs := Entry.occupied_iff.1 (h.occupied_of_leased hl)
  obtain ⟨_, hocc, hid, hleg, hinc, hterms, hlabel, hlease, hrem, hcause, hdisp, hfixed, hres, _⟩ := h
  exact ⟨fun hfree => absurd hfree hs, hocc, hid, hleg, hinc, hterms, hlabel, hlease, hrem, hcause,
    hdisp, hfixed, hres, fun _ => hl⟩

theorem EntrySound.forgetting (h : EntrySound e) (x : Identity) (holder : Word16) :
    EntrySound (e.forgetting x holder) := by
  unfold Entry.forgetting
  split
  case isTrue hm =>
    exact h.remembering (h.leased_of_superseded (by
      obtain ⟨late, hs⟩ := superseded_holder.1 hm.2
      simp [hs])) none
  case isFalse => exact h

/-- An edit leaves state and origin as they are; what the origin cannot hold it does not set (R175). -/
theorem EntrySound.edited {x : EditFields} (h : EntrySound e) (he : editable e = true)
    (hc : cannotHold x e = false) : EntrySound (editEntry x e) := by
  simp only [EntrySound, editEntry, editable, cannotHold, Entry.leased, Entry.live, Entry.timed,
    Dispute.present, Bool.and_eq_true, Bool.or_eq_true, Bool.or_eq_false_iff,
    Bool.and_eq_false_iff, beq_iff_eq, bne_iff_ne, beq_eq_false_iff_ne] at *
  rcases ho : e.origin with _ | (_ | _ | _ | _) <;> simp only [ho] at * <;> grind

theorem EntrySound.bound (h : EntrySound e) (hs : e.state = .reserved) (lease : Nat) :
    EntrySound (boundEntry e lease) := by
  simp only [EntrySound, boundEntry, Entry.leased, Entry.live, Entry.timed, Dispute.present] at *
  grind

theorem entrySound_reserved (x : Exchange) (t : Terms) {a : Nat} (h1 : 1 ≤ a) (h2 : a ≤ 239) :
    EntrySound (reservedEntry x a t) := by
  simp [EntrySound, reservedEntry, Entry.leased, Entry.live, Entry.timed, Dispute.present,
    Dispute.empty, h1, h2]

theorem entrySound_static {x : StaticFields} (h1 : 1 ≤ x.address) (h2 : x.address ≤ 239) :
    EntrySound (staticEntry x) := by
  simp [EntrySound, staticEntry, Entry.leased, Entry.live, Entry.timed, Dispute.present,
    Dispute.empty, h1, h2]

theorem entrySound_legacy {a : Nat} (h1 : 1 ≤ a) (h2 : a ≤ 239) (n : Nat) :
    EntrySound (legacyEntry a n) := by
  simp [EntrySound, legacyEntry, Entry.leased, Entry.live, Entry.timed, Dispute.present,
    Dispute.empty, h1, h2]

theorem entrySound_adopted (k : KeepFields) {a : Nat} (h1 : 1 ≤ a) (h2 : a ≤ 239) (lease : Nat) :
    EntrySound (adoptedEntry k a lease) := by
  simp [EntrySound, adoptedEntry, Entry.leased, Entry.live, Entry.timed, Dispute.present,
    Dispute.empty, h1, h2]

end NewEntries

/-! ### Parameters in range (R147) -/

section Params

variable {p : Params}

/-- Each parameter in its own range; the two pairs apart. -/
def ParamsEachInRange (p : Params) : Prop :=
  (∀ k, k ≠ .priority → Param.inRange (p.get k) k = true)
    ∧ p.priority.length = 8 ∧ p.priority.Nodup ∧ ∀ c ∈ p.priority, c ≤ 7

theorem paramsSound_iff :
    ParamsSound p ↔
      ParamsEachInRange p ∧ p.grantLow ≤ p.grantHigh ∧ p.minLease ≤ p.maxLease := by
  simp only [ParamsSound, ParamsEachInRange, and_assoc]

theorem ParamsSound.grantLow_pos (h : ParamsSound p) : 1 ≤ p.grantLow :=
  (of_decide_eq_true (h.1 .grantLow (by decide)) : 1 ≤ p.grantLow ∧ p.grantLow ≤ 239).1

theorem ParamsSound.grantHigh_le (h : ParamsSound p) : p.grantHigh ≤ 239 :=
  (of_decide_eq_true (h.1 .grantHigh (by decide)) : 1 ≤ p.grantHigh ∧ p.grantHigh ≤ 239).2

theorem ParamsSound.minLease_inRange (h : ParamsSound p) : TicksInRange p.minLease :=
  (of_decide_eq_true (h.1 .minLease (by decide)) : 1 ≤ p.minLease ∧ p.minLease ≤ 4095)

theorem ParamsSound.maxLease_inRange (h : ParamsSound p) : TicksInRange p.maxLease :=
  (of_decide_eq_true (h.1 .maxLease (by decide)) : 1 ≤ p.maxLease ∧ p.maxLease ≤ 4095)

theorem ParamsSound.grace_le (h : ParamsSound p) : p.grace ≤ 255 :=
  of_decide_eq_true (h.1 .grace (by decide))

theorem ParamsSound.hold_le (h : ParamsSound p) : p.hold ≤ 4095 :=
  of_decide_eq_true (h.1 .hold (by decide))

theorem ParamsSound.legacySilence_inRange (h : ParamsSound p) : TicksInRange p.legacySilence :=
  (of_decide_eq_true (h.1 .legacySilence (by decide)) : 1 ≤ p.legacySilence ∧ p.legacySilence ≤ 4095)

theorem ParamsSound.probeTries_le (h : ParamsSound p) : p.probeTries ≤ 7 :=
  (of_decide_eq_true (h.1 .probeTries (by decide)) : 1 ≤ p.probeTries ∧ p.probeTries ≤ 7).2

theorem ParamsSound.windowCap_inRange (h : ParamsSound p) (c : Cls) :
    1 ≤ p.windowCap[c] ∧ p.windowCap[c] ≤ 64 :=
  of_decide_eq_true (h.1 (.windowCap c) (by simp))

/-- The clamp's result lies between 1 and 4095, whatever is asked (R32). -/
theorem ParamsSound.clampLease_inRange (h : ParamsSound p) (asked : Nat) {cap : Option Nat}
    (hcap : ∀ c, cap = some c → TicksInRange c) : TicksInRange (clampLease p asked cap) := by
  obtain ⟨hmin, _⟩ := h.minLease_inRange
  obtain ⟨hmax1, hmax2⟩ := h.maxLease_inRange
  have hpair := h.2.2.2.2.2
  cases cap with
  | none => simp only [TicksInRange, clampLease]; omega
  | some c =>
    obtain ⟨hc1, hc2⟩ := hcap c rfl
    simp only [TicksInRange, clampLease]
    omega

/-- A parameter that is set has the value given. -/
theorem Params.get_put {v : Nat} {k : Param} (h : Param.inRange v k = true)
    (hk : k ≠ .priority) : (p.put v k).get k = v := by
  cases k <;> simp [Param.inRange] at h <;> simp [Params.get, Params.put, bitValue] at *
  all_goals grind

/-- A setting leaves every other parameter as it is. -/
theorem Params.get_put_ne {v : Nat} {j k : Param} (h : j ≠ k) : (p.put v k).get j = p.get j := by
  cases k
  case windowCap c =>
    cases j
    case windowCap d =>
      have hne : c.val ≠ d.val := fun hv => h (congrArg Param.windowCap (Fin.ext hv.symm))
      simp [Params.get, Params.put, hne]
    all_goals rfl
  all_goals (cases j <;> simp_all [Params.get, Params.put])

theorem Params.priority_put_ne {v : Nat} {k : Param} (h : k ≠ .priority) :
    (p.put v k).priority = p.priority := by
  cases k <;> simp_all [Params.put]

theorem ParamsEachInRange.put {v : Nat} {k : Param} (h : ParamsEachInRange p)
    (hv : Param.inRange v k = true) : ParamsEachInRange (p.put v k) := by
  obtain ⟨hget, hlen, hnodup, hle⟩ := h
  by_cases hk : k = .priority
  · subst hk
    simp only [Param.inRange, Bool.and_eq_true, List.all_eq_true, decide_eq_true_eq] at hv
    refine ⟨fun j hj => ?_, by simp [Params.put, priorityOf], hv.2, hv.1⟩
    rw [Params.get_put_ne hj]
    exact hget j hj
  · refine ⟨fun j hj => ?_, ?_⟩
    · by_cases hjk : j = k
      · subst hjk
        rw [Params.get_put hv hk]
        exact hv
      · rw [Params.get_put_ne hjk]
        exact hget j hj
    · rw [Params.priority_put_ne hk]
      exact ⟨hlen, hnodup, hle⟩

/-- One setting applied (R148). -/
def applySetting (p : Params) (x : Setting) : Params :=
  match x.param with
  | some k => p.put x.value k
  | none => p

theorem applySettings_cons (x : Setting) (l : List Setting) :
    applySettings p (x :: l) = applySettings (applySetting p x) l := rfl

theorem applySetting_cases (p : Params) (x : Setting) :
    (x.param = none ∧ applySetting p x = p)
      ∨ ∃ k, x.param = some k ∧ applySetting p x = p.put x.value k := by
  unfold applySetting
  cases hx : x.param with
  | none => exact .inl ⟨rfl, rfl⟩
  | some k => exact .inr ⟨k, rfl, rfl⟩

/-- Settings within their ranges keep what each of them keeps. -/
theorem applySettings_keeps {P : Params → Prop} {l : List Setting}
    (hput : ∀ q v k, P q → Param.inRange v k = true → P (q.put v k)) (h : P p)
    (hl : ∀ x ∈ l, ∀ k, x.param = some k → Param.inRange x.value k = true) :
    P (applySettings p l) := by
  induction l generalizing p with
  | nil => exact h
  | cons x l ih =>
    rw [applySettings_cons]
    refine ih ?_ fun y hy => hl y (List.mem_cons_of_mem x hy)
    obtain ⟨_, hq⟩ | ⟨k, hk, hq⟩ := applySetting_cases p x
    · rwa [hq]
    · rw [hq]
      exact hput _ _ _ h (hl x List.mem_cons_self k hk)

/-- Test 3 of R148: each value in its range, and both pairs in order after the command. -/
theorem badValues_eq_false {l : List Setting} (h : badValues p l = false) :
    (∀ x ∈ l, ∀ k, x.param = some k → Param.inRange x.value k = true)
      ∧ (applySettings p l).grantLow ≤ (applySettings p l).grantHigh
      ∧ (applySettings p l).minLease ≤ (applySettings p l).maxLease := by
  simp only [badValues, Bool.or_eq_false_iff, List.any_eq_false, decide_eq_false_iff_not,
    Nat.not_lt] at h
  obtain ⟨⟨hvalues, hgrant⟩, hlease⟩ := h
  exact ⟨fun x hx k hk => by simpa [hk] using hvalues x hx, hgrant, hlease⟩

theorem ParamsSound.applySettings {l : List Setting} (h : ParamsSound p)
    (hl : badValues p l = false) : ParamsSound (applySettings p l) := by
  obtain ⟨hvalues, hpairs⟩ := badValues_eq_false hl
  exact paramsSound_iff.2
    ⟨applySettings_keeps (fun _ _ _ => ParamsEachInRange.put) (paramsSound_iff.1 h).1 hvalues, hpairs⟩

theorem settle_put {v : Nat} {k : Param} (h : p.settle ≤ 255) (hv : Param.inRange v k = true) :
    (p.put v k).settle ≤ 255 := by
  by_cases hk : k = .settle
  · subst hk
    exact of_decide_eq_true hv
  · exact (Params.get_put_ne (p := p) (v := v) (j := .settle) (Ne.symm hk)).trans_le h

end Params

/-! ### What requests and commands carry is in range -/

theorem groupsInRange_of_valid {g : List Nat} (hlen : g.length ≤ 4) (h : groupsValid g = true) :
    GroupsInRange g := by
  simp only [groupsValid, Bool.and_eq_true, List.all_eq_true, decide_eq_true_eq] at h
  exact ⟨hlen, h.2, h.1⟩

theorem groupsInRange_nil : GroupsInRange [] := ⟨by simp, List.nodup_nil, by simp⟩

theorem readGroups_inRange {p : List Byte} {k : Nat} {g : List Nat} (h : readGroups p k = some g) :
    GroupsInRange g := by
  simp only [readGroups, Option.ite_none_right_eq_some, Bool.and_eq_true, decide_eq_true_eq,
    Option.some.injEq] at h
  obtain ⟨⟨hn, hv⟩, rfl⟩ := h
  refine groupsInRange_of_valid ?_ hv
  rw [List.length_map, List.length_take]
  omega

/-- A label that is read fills its length where the parameters hold twelve bytes behind it. -/
theorem readLabel_inRange {p : List Byte} {k : Nat} {l : List Byte} (hlen : k + 13 ≤ p.length)
    (h : readLabel p k = some l) : LabelInRange l := by
  simp only [readLabel, Option.ite_none_right_eq_some, Option.some.injEq] at h
  obtain ⟨⟨hn1, hn12, hv⟩, rfl⟩ := h
  refine ⟨?_, ?_, hv⟩ <;>
  · rw [List.length_take, List.length_drop]
    omega

theorem readWindow_inRange {p : List Byte} {k w : Nat} (h : readWindow p k = some w) :
    1 ≤ w ∧ w ≤ 64 := by
  simp only [readWindow, Option.ite_none_right_eq_some, Option.some.injEq] at h
  obtain ⟨hw, rfl⟩ := h
  exact hw

theorem readLease_inRange {p : List Byte} {k n : Nat} (h : readLease p k = some n) :
    TicksInRange n := by
  simp only [readLease, Option.ite_none_right_eq_some, Option.some.injEq] at h
  obtain ⟨hn, rfl⟩ := h
  exact hn

/-- A field marked present is read, and one marked absent is none (R186). -/
theorem readWhen_eq_some {α : Type} {present : Bool} {field : Option α} {r : Option α}
    (h : readWhen present field = some r) :
    (present = false ∧ r = none) ∨ ∃ v, present = true ∧ field = some v ∧ r = some v := by
  cases present with
  | false => exact .inl ⟨rfl, by simpa [readWhen, eq_comm] using h⟩
  | true =>
    obtain ⟨v, hv, rfl⟩ : ∃ v, field = some v ∧ some v = r := by simpa [readWhen] using h
    exact .inr ⟨v, rfl, hv, rfl⟩

/-- A page that keeps its kind's rules holds what a context may hold (R72). -/
theorem readPage_inRange {p : List Byte} {g : Page} (h : readPage p = some g) :
    (∀ l, g = .groups l → GroupsInRange l) ∧ (∀ w, g = .window w → 1 ≤ w ∧ w ≤ 64)
      ∧ ∀ l, g = .label l → LabelInRange l := by
  simp only [readPage] at h
  split at h
  case isTrue => cases h
  case isFalse hlen =>
    have hbody : (p.drop 12).length = (byteAt p 11).toNat := by
      rw [List.length_drop]
      omega
    split at h
    · simp only [Option.ite_none_right_eq_some, Bool.and_eq_true, decide_eq_true_eq,
        Option.some.injEq] at h
      obtain ⟨⟨hle, hv⟩, rfl⟩ := h
      refine ⟨fun l hl => ?_, nofun, nofun⟩
      cases hl
      exact groupsInRange_of_valid (by rw [List.length_map, hbody]; exact hle) hv
    · simp only [Option.ite_none_right_eq_some, Option.some.injEq] at h
      obtain ⟨⟨_, hw⟩, rfl⟩ := h
      refine ⟨nofun, fun w he => ?_, nofun⟩
      cases he
      exact hw
    · simp only [Option.ite_none_right_eq_some, Option.some.injEq] at h
      obtain ⟨⟨h1, h12, hv⟩, rfl⟩ := h
      refine ⟨nofun, nofun, fun l he => ?_⟩
      cases he
      exact ⟨hbody ▸ h1, hbody ▸ h12, hv⟩
    · cases h

end Sys2Proof.Machine
end

section
/-! What a change of the state keeps, said once: the clock and the queue of commands, the invariants of
the blocks, and that the generations tell what changed. -/

namespace Sys2Proof.Machine

-- One lemma is elaborated after another, which keeps the check's memory low.
set_option Elab.async false

/-! ### Generations (R6, R7) -/

/-- Every entry's generation is advanced at most `n` times, and by none of them only where the entry's
tracked fields are as they were. -/
def Advanced (n : Nat) (s t : State) : Prop :=
  ∀ i, ∃ k, k ≤ n ∧ (entry t i).generation = (entry s i).generation + BitVec.ofNat 16 k
    ∧ (k = 0 → (entry t i).tracked = (entry s i).tracked)

theorem Advanced.refl (n : Nat) (s : State) : Advanced n s s :=
  fun _ => ⟨0, Nat.zero_le n, by simp, fun _ => rfl⟩

theorem Advanced.trans {n m : Nat} {s t u : State} (h : Advanced n s t) (h' : Advanced m t u) :
    Advanced (n + m) s u := by
  intro i
  obtain ⟨k, hk, hgen, htracked⟩ := h i
  obtain ⟨k', hk', hgen', htracked'⟩ := h' i
  refine ⟨k + k', by omega, ?_, fun hz => ?_⟩
  · rw [hgen', hgen, BitVec.ofNat_add, BitVec.add_assoc]
  · rw [htracked' (by omega), htracked (by omega)]

theorem Advanced.mono {n m : Nat} {s t : State} (h : Advanced n s t) (hnm : n ≤ m) :
    Advanced m s t := fun i => by
  obtain ⟨k, hk, hrest⟩ := h i
  exact ⟨k, hk.trans hnm, hrest⟩

/-- Fewer advances than make a generation wrap around: one that is left as it was tells that nothing
tracked has changed (R7). -/
theorem Advanced.tracked {n : Nat} {s t : State} (h : Advanced n s t) (hn : n < 65536) {i : Index}
    (hg : (entry t i).generation = (entry s i).generation) :
    (entry t i).tracked = (entry s i).tracked := by
  obtain ⟨k, hk, hgen, htracked⟩ := h i
  refine htracked ?_
  have hz : BitVec.ofNat 16 k = 0#16 := by
    rw [hg] at hgen
    exact left_eq_add.1 hgen
  simpa [Nat.mod_eq_of_lt (show k < 65536 by omega)] using congrArg BitVec.toNat hz

/-- A table in which every entry has its generation and tracked fields is reached by no advance. -/
theorem advanced_of_tracked {s t : State}
    (hg : ∀ i, (entry t i).generation = (entry s i).generation)
    (ht : ∀ i, (entry t i).tracked = (entry s i).tracked) : Advanced 0 s t :=
  fun i => ⟨0, le_rfl, by simp [hg i], fun _ => ht i⟩

/-! ### The queue of messages (R125, R126, R130) -/

/-- No two waiting messages are identical, and collisions are bounded as R130 bounds them. -/
def QueueSound (s : State) : Prop := WaitingDistinct s ∧ CollisionsSound s

/-- What the invariants of the queue read of a message. -/
def QueuedMessage.key (m : QueuedMessage) : Nat × Answer × Nat :=
  (m.destination, m.answer, m.collisions)

/-- Messages of a list are distinct and have met no collision. -/
def WaitingSound (l : List QueuedMessage) : Prop :=
  l.Pairwise (fun m n => ¬ (m.destination = n.destination ∧ m.answer = n.answer))
    ∧ ∀ m ∈ l, m.collisions = 0

/-- The head has met no more collisions than its transmitter allows (R130). -/
def HeadSound (tx : Transmitter) (m : QueuedMessage) : Prop :=
  m.collisions ≤ 12 ∧ ((∀ t, tx ≠ .jamming t) → m.collisions ≤ 11)

theorem queueSound_iff {s : State} :
    QueueSound s ↔
      WaitingSound s.port.queue.tail
        ∧ ∀ m, s.port.queue.head? = some m → HeadSound s.port.tx m := by
  simp only [QueueSound, WaitingDistinct, CollisionsSound, WaitingSound, HeadSound, and_assoc]

theorem queueSound_cons {s : State} {m : QueuedMessage} {l : List QueuedMessage}
    (hq : s.port.queue = m :: l) :
    QueueSound s ↔ WaitingSound l ∧ HeadSound s.port.tx m := by
  simp [queueSound_iff, hq]

theorem queueSound_nil {s : State} (hq : s.port.queue = []) : QueueSound s := by
  simp [queueSound_iff, hq, WaitingSound]

theorem WaitingSound.sublist {l l' : List QueuedMessage} (h : WaitingSound l) (hl : l'.Sublist l) :
    WaitingSound l' :=
  ⟨h.1.sublist hl, fun m hm => h.2 m (hl.subset hm)⟩

theorem headSound_fresh {m : QueuedMessage} (tx : Transmitter) (h : m.collisions = 0) :
    HeadSound tx m := by
  simp [HeadSound, h]

theorem waitingSound_iff_keys {l : List QueuedMessage} :
    WaitingSound l ↔
      (l.map QueuedMessage.key).Pairwise (fun m n => ¬ (m.1 = n.1 ∧ m.2.1 = n.2.1))
        ∧ ∀ m ∈ l.map QueuedMessage.key, m.2.2 = 0 := by
  simp only [WaitingSound, List.pairwise_map, List.forall_mem_map, QueuedMessage.key]

theorem headSound_iff_key {tx : Transmitter} {l : List QueuedMessage} :
    (∀ m, l.head? = some m → HeadSound tx m) ↔
      ∀ k, (l.map QueuedMessage.key).head? = some k →
        k.2.2 ≤ 12 ∧ ((∀ t, tx ≠ .jamming t) → k.2.2 ≤ 11) := by
  cases l <;> simp [HeadSound, QueuedMessage.key]

/-- The invariants of the queue see neither the waiters nor the age of a message. -/
theorem queueSound_of_keys {s t : State}
    (hq : t.port.queue.map QueuedMessage.key = s.port.queue.map QueuedMessage.key)
    (htx : t.port.tx = s.port.tx) (h : QueueSound s) : QueueSound t := by
  rw [queueSound_iff, waitingSound_iff_keys, headSound_iff_key, List.map_tail] at *
  rwa [hq, htx]

/-! ### What is kept -/

/-- What a change from `s` to `t` keeps, within a command that began in `s₀`; it advances no entry's
generation more than `n` times. -/
structure Kept (s₀ : State) (n : Nat) (s t : State) : Prop where
  pending : t.pending = s.pending
  now : s.now ≤ t.now
  freeUsed : s.freeUsed ≤ t.freeUsed
  clock : ClockSound s → ClockSound t
  lookup : LookupSound s → LookupSound t
  queue : QueueSound s₀ → QueueSound s → QueueSound t
  generations : Advanced n s t
  table : TableSound s₀ → TableSound s → TableSound t
  values : ValuesInRange s₀ → ValuesInRange s → ValuesInRange t

section Compose

variable {s₀ s t u : State} {n m k : Nat}

theorem Kept.refl (s₀ s : State) : Kept s₀ 0 s s :=
  ⟨rfl, le_rfl, le_rfl, id, id, fun _ => id, Advanced.refl 0 s, fun _ => id, fun _ => id⟩

theorem Kept.trans (h : Kept s₀ n s t) (h' : Kept s₀ m t u) : Kept s₀ (n + m) s u :=
  ⟨h'.pending.trans h.pending, h.now.trans h'.now, h.freeUsed.trans h'.freeUsed,
    h'.clock ∘ h.clock, h'.lookup ∘ h.lookup, fun h₀ => h'.queue h₀ ∘ h.queue h₀,
    h.generations.trans h'.generations, fun h₀ => h'.table h₀ ∘ h.table h₀,
    fun h₀ => h'.values h₀ ∘ h.values h₀⟩

theorem Kept.mono (h : Kept s₀ n s t) (hk : n ≤ k := by omega) : Kept s₀ k s t :=
  { h with generations := h.generations.mono hk }

theorem Kept.of_eq (h : t = s) : Kept s₀ 0 s t := h ▸ Kept.refl s₀ s

/-- What the walk is set to afterwards is judged apart from what else changes. -/
theorem Kept.with_lookup {l l' : LookupUnit} (h : Kept s₀ n { s with lookup := l } t)
    (hl : LookupSound s → LookupSound { t with lookup := l' }) :
    Kept s₀ n s { t with lookup := l' } :=
  ⟨h.pending, h.now, h.freeUsed, h.clock, hl, h.queue, h.generations, h.table, h.values⟩

end Compose

/-! ### One part of the state replaced -/

section OnePart

variable {s₀ : State} (s : State)

theorem kept_host (h : HostPort) : Kept s₀ 0 s { s with host := h } :=
  ⟨rfl, le_rfl, le_rfl, id, id, fun _ => id, Advanced.refl 0 s, fun _ => id, fun _ => id⟩

theorem kept_now {t : Nat} (ht : s.now ≤ t) : Kept s₀ 0 s { s with now := t } :=
  ⟨rfl, ht, le_rfl, id, id, fun _ => id, Advanced.refl 0 s, fun _ => id, fun _ => id⟩

theorem kept_freeUsed {n : Nat} (hn : s.freeUsed ≤ n) : Kept s₀ 0 s { s with freeUsed := n } :=
  ⟨rfl, le_rfl, hn, id, id, fun _ => id, Advanced.refl 0 s, fun _ => id, fun _ => id⟩

theorem kept_deferrals (d : List Deferral) : Kept s₀ 0 s { s with admission.deferrals := d } :=
  ⟨rfl, le_rfl, le_rfl, id, id, fun _ => id, Advanced.refl 0 s, fun _ => id, fun _ => id⟩

theorem kept_owed (o : Vector Nat 160) : Kept s₀ 0 s { s with lease.owed := o } :=
  ⟨rfl, le_rfl, le_rfl, id, id, fun _ => id, Advanced.refl 0 s, fun _ => id, fun _ => id⟩

theorem kept_nextToken (n : Nat) : Kept s₀ 0 s { s with join.nextToken := n } :=
  ⟨rfl, le_rfl, le_rfl, id, id, fun _ => id, Advanced.refl 0 s, fun _ => id, fun _ => id⟩

theorem kept_lookup (l : LookupUnit) (h : LookupSound s → LookupSound { s with lookup := l }) :
    Kept s₀ 0 s { s with lookup := l } :=
  ⟨rfl, le_rfl, le_rfl, id, h, fun _ => id, Advanced.refl 0 s, fun _ => id, fun _ => id⟩

/-- The change unit but its counters. -/
theorem kept_change {c : ChangeUnit} (h : c.counters = s.change.counters) :
    Kept s₀ 0 s { s with change := c } :=
  ⟨rfl, le_rfl, le_rfl, id, id, fun _ => id, Advanced.refl 0 s, fun _ => id,
    fun _ ⟨hp, he, hc, hr, hn, hi, hk⟩ => ⟨hp, he, hc, hr, hn, hi, fun k => by
      rw [counter, h]
      exact hk k⟩⟩

theorem kept_counters (v : Vector Nat 12)
    (h : (∀ k, counter s k ≤ Config.counterCeiling) →
      ∀ k : Counter, v[k.slot] ≤ Config.counterCeiling) :
    Kept s₀ 0 s { s with change.counters := v } :=
  ⟨rfl, le_rfl, le_rfl, id, id, fun _ => id, Advanced.refl 0 s, fun _ => id,
    fun _ ⟨hp, he, hc, hr, hn, hi, hk⟩ => ⟨hp, he, hc, hr, hn, hi, h hk⟩⟩

theorem kept_filter (l : List FilterRule)
    (h : (∀ r ∈ s.admission.filter, RuleInRange r)
        ∧ s.admission.filter.length ≤ Config.filterRules →
      (∀ r ∈ l, RuleInRange r) ∧ l.length ≤ Config.filterRules) :
    Kept s₀ 0 s { s with admission.filter := l } :=
  ⟨rfl, le_rfl, le_rfl, id, id, fun _ => id, Advanced.refl 0 s, fun _ => id,
    fun _ ⟨hp, he, hc, hr, hn, hi, hk⟩ =>
      ⟨hp, he, hc, (h ⟨hr, hn⟩).1, (h ⟨hr, hn⟩).2, hi, hk⟩⟩

/-- The segment port but its inbound buffer. -/
theorem kept_port {p : SegmentPort} (hi : p.inbound = s.port.inbound)
    (hq : QueueSound s₀ → QueueSound s → QueueSound { s with port := p }) :
    Kept s₀ 0 s { s with port := p } :=
  ⟨rfl, le_rfl, le_rfl, id, id, hq, Advanced.refl 0 s, fun _ => id,
    fun _ ⟨hp, he, hc, hr, hn, hin, hk⟩ => ⟨hp, he, hc, hr, hn, fun r hr => hin r (hi ▸ hr), hk⟩⟩

/-- The segment port but its inbound buffer, its queue and its transmitter. -/
theorem kept_line {p : SegmentPort} (hi : p.inbound = s.port.inbound)
    (hq : p.queue = s.port.queue) (htx : p.tx = s.port.tx) : Kept s₀ 0 s { s with port := p } :=
  kept_port s hi fun _ => queueSound_of_keys (congrArg _ hq) htx

theorem kept_inbound (l : List Request)
    (h : InboundTested s → InboundTested { s with port.inbound := l }) :
    Kept s₀ 0 s { s with port.inbound := l } :=
  ⟨rfl, le_rfl, le_rfl, id, id, fun _ => id, Advanced.refl 0 s, fun _ => id,
    fun _ ⟨hp, he, hc, hr, hn, hi, hk⟩ => ⟨hp, he, hc, hr, hn, h hi, hk⟩⟩

theorem kept_contexts (v : Vector (Option Exchange) 8)
    (h : ValuesInRange s₀ → ValuesInRange s → ∀ (k : CtxNum) x, v[k] = some x →
      ExchangeInRange x) :
    Kept s₀ 0 s { s with join.contexts := v } :=
  ⟨rfl, le_rfl, le_rfl, id, id, fun _ => id, Advanced.refl 0 s, fun _ => id,
    fun h₀ hv => by
      obtain ⟨hp, he, _, hr, hn, hi, hk⟩ := id hv
      exact ⟨hp, he, h h₀ hv, hr, hn, hi, hk⟩⟩

/-- The table alone. -/
theorem kept_table {n : Nat} (e : Vector Entry 160) (ha : Advanced n s { s with table.entries := e })
    (ht : TableSound s₀ → TableSound s → TableSound { s with table.entries := e })
    (hv : ValuesInRange s₀ → ValuesInRange s → ∀ i : Index, EntryInRange e[i]) :
    Kept s₀ n s { s with table.entries := e } :=
  ⟨rfl, le_rfl, le_rfl, id, id, fun _ => id, ha, ht,
    fun h₀ h => by
      obtain ⟨hp, _, hc, hr, hn, hi, hk⟩ := id h
      exact ⟨hp, hv h₀ h, hc, hr, hn, hi, hk⟩⟩

/-- Phase control and the lease clock, the parameters as they were. -/
theorem kept_phase {p : PhaseControl} {l : LeaseUnit} (hp : p.params = s.phase.params)
    (h : ClockSound s → ClockSound { s with phase := p, lease := l }) :
    Kept s₀ 0 s { s with phase := p, lease := l } :=
  ⟨rfl, le_rfl, le_rfl, h, id, fun _ => id, Advanced.refl 0 s,
    fun _ ⟨hparams, hrest⟩ => ⟨hp ▸ hparams, hrest⟩,
    fun _ ⟨hparams, hrest⟩ => ⟨hp ▸ hparams, hrest⟩⟩

end OnePart

end Sys2Proof.Machine
end

section
/-! What the shared operations keep (spec/01, spec/04, spec/07): each is one change of a part of the
state, or a chain of such changes. -/

namespace Sys2Proof.Machine

-- One lemma is elaborated after another, which keeps the check's memory low.
set_option Elab.async false

/-! ### The table with one entry replaced -/

theorem entry_withEntry (i j : Index) (e : Entry) (s : State) :
    entry (withEntry i e s) j = if j = i then e else entry s j := by
  by_cases h : j = i
  · subst h
    simp [entry, withEntry]
  · have hval : i.val ≠ j.val := fun k => h (Fin.ext k.symm)
    simp [entry, withEntry, h, hval]

/-- A sound entry may stand at `i`: no other entry holds its address or its identity (R14, R15). -/
def EntryFits (i : Index) (e : Entry) (s : State) : Prop :=
  EntrySound e ∧ ∀ j, j ≠ i →
    (∀ a, e.address = some a → (entry s j).address ≠ some a)
      ∧ ∀ x, e.identity = some x → (entry s j).identity ≠ some x

section Fits

variable {s : State} {i : Index} {e : Entry}

/-- An entry that keeps or drops what its place held fits there. -/
theorem TableSound.fits (hs : TableSound s) (he : EntrySound e)
    (ha : ∀ a, e.address = some a → (entry s i).address = some a)
    (hx : ∀ x, e.identity = some x → (entry s i).identity = some x) : EntryFits i e s := by
  obtain ⟨_, _, haddr, hid⟩ := hs
  exact ⟨he, fun j hj => ⟨fun a h h' => hj (haddr j i a h' (ha a h)),
    fun x h h' => hj (hid j i x h' (hx x h))⟩⟩

/-- A new entry fits where no occupied entry holds its address or its identity. -/
theorem TableSound.fits_new (hs : TableSound s) (he : EntrySound e)
    (ha : ∀ a, e.address = some a → AddressUnheld s a)
    (hx : ∀ x, e.identity = some x → IdentityUnheld s x) : EntryFits i e s := by
  obtain ⟨_, hsound, _, _⟩ := hs
  exact ⟨he, fun j _ =>
    ⟨fun a h h' => ha a h j ((hsound j).occupied_of_address h') h',
      fun x h h' => hx x h j ((hsound j).occupied_of_identity h') h'⟩⟩

theorem TableSound.withEntry (hs : TableSound s) (hf : EntryFits i e s) :
    TableSound (withEntry i e s) := by
  obtain ⟨hparams, hsound, haddr, hid⟩ := hs
  obtain ⟨he, hother⟩ := hf
  refine ⟨hparams, fun j => ?_, fun j k a hj hk => ?_, fun j k x hj hk => ?_⟩
  · rw [entry_withEntry]
    split
    · exact he
    · exact hsound j
  · rw [entry_withEntry] at hj hk
    by_cases hji : j = i <;> by_cases hki : k = i <;> simp only [hji, hki, if_true, if_false] at hj hk
    · rw [hji, hki]
    · exact absurd hk ((hother k hki).1 a hj)
    · exact absurd hj ((hother j hji).1 a hk)
    · exact haddr j k a hj hk
  · rw [entry_withEntry] at hj hk
    by_cases hji : j = i <;> by_cases hki : k = i <;> simp only [hji, hki, if_true, if_false] at hj hk
    · rw [hji, hki]
    · exact absurd hk ((hother k hki).2 x hj)
    · exact absurd hj ((hother j hji).2 x hk)
    · exact hid j k x hj hk

theorem EntryFits.with_generation (hf : EntryFits i e s) (g : Word16) :
    EntryFits i { e with generation := g } s :=
  ⟨hf.1.with_generation g, hf.2⟩

end Fits

theorem ValuesInRange.withEntry {s : State} {i : Index} {e : Entry} (hs : ValuesInRange s)
    (he : EntryInRange e) (j : Index) : EntryInRange (entry (withEntry i e s) j) := by
  rw [entry_withEntry]
  split
  · exact he
  · exact hs.2.1 j

section ChangeRequests

variable {s₀ s : State} {i : Index} {new : Entry}

theorem advanced_changeEntry (causes : CauseSet) :
    Advanced 1 s (changeEntry i new causes s) := by
  intro j
  rw [entry_changeEntry]
  by_cases hj : j = i
  · subst hj
    rw [if_pos rfl]
    by_cases ht : (entry s j).tracked = new.tracked
    · exact ⟨0, by omega, by simp [nextGeneration, ht], fun _ => ht.symm⟩
    · exact ⟨1, le_rfl, by simp [nextGeneration, ht], nofun⟩
  · rw [if_neg hj]
    exact ⟨0, by omega, by simp, fun _ => rfl⟩

theorem changeEntry_kept (causes : CauseSet)
    (ht : TableSound s₀ → TableSound s → EntryFits i new s)
    (hv : ValuesInRange s₀ → ValuesInRange s → EntryInRange new) :
    Kept s₀ 1 s (changeEntry i new causes s) :=
  ⟨rfl, le_rfl, le_rfl, id, id, fun _ => id, advanced_changeEntry causes,
    fun h₀ h => h.withEntry ((ht h₀ h).with_generation _),
    fun h₀ h => by
      obtain ⟨hp, _, hc, hr, hn, hi, hk⟩ := id h
      exact ⟨hp, h.withEntry (hv h₀ h), hc, hr, hn, hi, hk⟩⟩

end ChangeRequests

/-! ### Change requests by what they do to an entry (spec/01, spec/02) -/

section Entries

variable {s₀ s : State} {i : Index}

theorem entryInRange_freeAt (g : Word16) : EntryInRange (Entry.freeAt g) := by
  simp [EntryInRange, Entry.freeAt]

theorem entryFits_freeAt (s : State) (i : Index) (g : Word16) : EntryFits i (Entry.freeAt g) s :=
  ⟨entrySound_freeAt g, fun _ _ => ⟨nofun, nofun⟩⟩

theorem freeEntry_kept (i : Index) (s : State) : Kept s₀ 1 s (freeEntry i s) :=
  changeEntry_kept _ (fun _ _ => entryFits_freeAt s i _) fun _ _ => entryInRange_freeAt _

theorem holdEntry_kept (cause : HeldCause) (hl : (entry s i).leased = true)
    (hlive : (entry s i).live = true) : Kept s₀ 1 s (holdEntry cause i s) := by
  obtain ⟨_, hs⟩ | ⟨hhold, hs⟩ := holdEntry_cases cause i s
  · exact hs ▸ freeEntry_kept i s
  · rw [hs]
    refine changeEntry_kept _ (fun _ h => h.fits ((h.2.1 i).held hl hlive _ _) (fun _ => id)
      fun _ => id) fun _ h => ?_
    obtain ⟨hterms, hlabel, hlease, _⟩ := h.2.1 i
    exact ⟨hterms, hlabel, hlease, fun n hn => by
      cases hn
      exact ⟨Nat.pos_of_ne_zero hhold, h.1.hold_le⟩⟩

theorem endBinding_kept (cause : HeldCause) (hlive : (entry s i).live = true) :
    Kept s₀ 1 s (endBinding cause i s) := by
  unfold endBinding
  split
  case isTrue hl => exact holdEntry_kept cause hl hlive
  case isFalse => exact freeEntry_kept i s

/-- A renewal's lease and remaining time. -/
theorem EntryInRange.renewed {e : Entry} (h : EntryInRange e) {n : Nat} (hn : TicksInRange n) :
    EntryInRange (e.renewed n) := by
  obtain ⟨hterms, hlabel, _, _⟩ := h
  exact ⟨hterms, hlabel, fun m hm => by cases hm; exact hn, fun m hm => by cases hm; exact hn⟩

theorem renewEntry_kept {lease : Nat} (hl : TableSound s₀ → TableSound s → (entry s i).leased = true)
    (hlive : (entry s i).live = true) (hn : ValuesInRange s₀ → ValuesInRange s → TicksInRange lease) :
    Kept s₀ 1 s (renewEntry i lease s) :=
  changeEntry_kept _
    (fun h₀ h => h.fits ((h.2.1 i).renewed (hl h₀ h) hlive lease) (fun _ => id) fun _ => id)
    fun h₀ h => (h.2.1 i).renewed (hn h₀ h)

theorem disputed_kept (causes : CauseSet) (d : Dispute) (hlive : (entry s i).live = true) :
    Kept s₀ 1 s (changeEntry i { entry s i with dispute := d } causes s) :=
  changeEntry_kept _
    (fun _ h => h.fits ((h.2.1 i).disputed hlive d) (fun _ => id) fun _ => id)
    fun _ h => h.2.1 i

end Entries

section Operations

variable {s₀ : State}

/-! ### Causes and counters (spec/09) -/

theorem setPart_kept (c : CauseSet) (s : State) : Kept s₀ 0 s (setPart c s) := kept_change s rfl

/-- A part cause is set after other changes. -/
theorem Kept.then_setPart {n : Nat} {s t : State} {c : CauseSet} (h : Kept s₀ n s t) :
    Kept s₀ n s (setPart c t) :=
  h.trans (setPart_kept c t)

theorem count_kept (c : Counter) (s : State) : Kept s₀ 0 s (count c s) := by
  unfold count
  split
  case isTrue => exact Kept.refl s₀ s
  case isFalse hlt =>
    have hset : Kept s₀ 0 s { s with
        change.counters := s.change.counters.set c.slot (counter s c + 1) } := by
      refine kept_counters s _ fun h k => ?_
      by_cases hk : c.slot = k.slot
      · simp only [← hk, Fin.getElem_fin, Vector.getElem_set_self]
        omega
      · have hval : c.slot.val ≠ k.slot.val := fun hv => hk (Fin.ext hv)
        simpa [hval, counter] using h k
    split
    case isTrue => exact hset.trans (setPart_kept _ _)
    case isFalse => exact hset

theorem addCollision_kept (i : Index) (s : State) : Kept s₀ 1 s (addCollision i s) := by
  obtain hs | ⟨hlive, _, hs⟩ := addCollision_cases i s
  · exact (Kept.of_eq hs).mono
  · rw [hs]
    exact (disputed_kept _ _ hlive).trans (count_kept _ _)

theorem addDuplicate_kept (i : Index) (s : State) : Kept s₀ 1 s (addDuplicate i s) := by
  obtain hs | ⟨hlive, _, hs⟩ := addDuplicate_cases i s
  · exact (Kept.of_eq hs).mono
  · rw [hs]
    exact disputed_kept _ _ hlive

theorem allocate_kept {s t : State} {i : Index} (h : allocate s = some (i, t)) : Kept s₀ 1 s t := by
  obtain ⟨_, rfl⟩ | ⟨_, _, rfl⟩ := allocate_cases h
  · exact (Kept.refl _ _).mono
  · exact freeEntry_kept i s

/-! ### The engine (spec/10) -/

theorem finish_eq_host (st : Status) (d : List Byte) (s : State) :
    finish st d s = { s with host := (finish st d s).host } := by
  unfold finish
  split <;> rfl

theorem waitFor_eq_host (w : Work) (s : State) :
    waitFor w s = { s with host := (waitFor w s).host } := by
  unfold waitFor
  split <;> rfl

theorem finish_kept (st : Status) (d : List Byte) (s : State) : Kept s₀ 0 s (finish st d s) := by
  rw [finish_eq_host]
  exact kept_host s _

/-- A command completes after other changes. -/
theorem Kept.then_finish {n : Nat} {s t : State} {st : Status} {d : List Byte}
    (h : Kept s₀ n s t) : Kept s₀ n s (finish st d t) :=
  h.trans (finish_kept st d t)

theorem waitFor_kept (w : Work) (s : State) : Kept s₀ 0 s (waitFor w s) := by
  rw [waitFor_eq_host]
  exact kept_host s _

theorem accept_kept (f : CommandFrame) (s : State) : Kept s₀ 0 s (accept f s) := kept_host s _

/-! ### Contexts (spec/04) -/

theorem setContext_kept {s : State} {c : CtxNum} {x : Option Exchange}
    (hx : ValuesInRange s₀ → ValuesInRange s → ∀ y, x = some y → ExchangeInRange y) : Kept s₀ 0 s (setContext c x s) := by
  refine kept_contexts s _ fun h₀ h d y hy => ?_
  have hctx := context_setContext c d x s
  rw [show context (setContext c x s) d = some y from hy] at hctx
  split at hctx
  · exact hx h₀ h y hctx.symm
  · exact h.2.2.1 d y hctx.symm

/-- A probe timer that starts leaves the tries used as they are. -/
theorem ExchangeInRange.with_timer {x : Exchange} {n : Nat} {t t' : ProbeTimer}
    (h : ExchangeInRange x) (hs : x.stage = .checking n t) :
    ExchangeInRange { x with stage := .checking n t' } := by
  obtain ⟨hset, hlease, hhint, hpages, hturn, hgroups, hwindow, hlabel, hcap, hleaseCap, htries, _⟩ := h
  exact ⟨hset, hlease, hhint, hpages, hturn, hgroups, hwindow, hlabel, hcap, hleaseCap,
    fun m u hm => by cases hm; exact htries n t hs, nofun⟩

theorem reportTo_kept (o : NoticeOutcome) (w : Waiter) (s : State) : Kept s₀ 0 s (reportTo o w s) := by
  obtain hs | ⟨c, token, x, n, _, hx, hstage, hs⟩ | ⟨_, _, _, _, _, _, hs⟩ := reportTo_cases o w s
  · exact Kept.of_eq hs
  · rw [hs]
    refine setContext_kept fun _ h y hy => ?_
    cases hy
    exact (h.2.2.1 c x hx).with_timer hstage
  · rw [hs]
    exact finish_kept _ _ s

theorem reportAll_kept (o : NoticeOutcome) (ws : List Waiter) (s : State) :
    Kept s₀ 0 s (reportAll o ws s) := by
  induction ws generalizing s with
  | nil => exact Kept.refl s₀ s
  | cons w ws ih => exact (reportTo_kept o w s).trans (ih _)

theorem Kept.then_reportAll {n : Nat} {s t : State} {o : NoticeOutcome} {ws : List Waiter}
    (h : Kept s₀ n s t) : Kept s₀ n s (reportAll o ws t) :=
  h.trans (reportAll_kept o ws t)

/-! ### The answer queue and the transmitter (spec/07) -/

/-- A queue whose head may be taken up is taken up (R128). -/
theorem takeUp_kept {s : State} {q : List QueuedMessage}
    (h : QueueSound s₀ → QueueSound s →
      WaitingSound q.tail ∧ ∀ m, q.head? = some m → m.collisions ≤ 11) :
    Kept s₀ 0 s (takeUp { s with port.queue := q }) := by
  have hq (tx : Transmitter) (o : Bool) (h₀ : QueueSound s₀) (hs : QueueSound s) :
      QueueSound { s with port.queue := q, port.tx := tx, port.overlapped := o } :=
    queueSound_iff.2 ⟨(h h₀ hs).1, fun m hm =>
      ⟨Nat.le_succ_of_le ((h h₀ hs).2 m hm), fun _ => (h h₀ hs).2 m hm⟩⟩
  unfold takeUp
  split
  case isTrue => exact kept_port s rfl (hq _ _)
  case isFalse => exact kept_port s rfl (hq _ _)

/-- Merging changes the waiters of one message alone. -/
theorem mergeInto_keys {d : Nat} {a : Answer} {ws : List Waiter} {l l' : List QueuedMessage}
    (h : mergeInto d a ws l = some l') : l'.map QueuedMessage.key = l.map QueuedMessage.key := by
  induction l generalizing l' with
  | nil => cases h
  | cons m rest ih =>
    rw [mergeInto] at h
    split at h
    · cases h
      rfl
    · obtain ⟨r, hr, rfl⟩ := Option.map_eq_some_iff.1 h
      simp [ih hr]

/-- Where nothing is merged, no waiting message is identical. -/
theorem mergeInto_none {d : Nat} {a : Answer} {ws : List Waiter} {l : List QueuedMessage} :
    mergeInto d a ws l = none ↔ ∀ m ∈ l, ¬ (m.destination = d ∧ m.answer = a) := by
  induction l with
  | nil => simp [mergeInto]
  | cons m rest ih =>
    rw [mergeInto]
    split
    case isTrue h => simp [h]
    case isFalse h => simpa [ih] using fun _ => not_and.1 h

theorem WaitingSound.append {l : List QueuedMessage} {m : QueuedMessage} (h : WaitingSound l)
    (hm : ∀ n ∈ l, ¬ (n.destination = m.destination ∧ n.answer = m.answer))
    (hc : m.collisions = 0) : WaitingSound (l ++ [m]) := by
  refine ⟨List.pairwise_append.2 ⟨h.1, List.pairwise_singleton _ _, fun n hn k hk => ?_⟩,
    fun n hn => ?_⟩
  · rw [List.mem_singleton.1 hk]
    exact hm n hn
  · obtain hn | hn := List.mem_append.1 hn
    · exact h.2 n hn
    · rw [List.mem_singleton.1 hn, hc]

theorem handOver_kept (d : Nat) (a : Answer) (ws : List Waiter) (s : State) :
    Kept s₀ 0 s (handOver d a ws s) := by
  obtain ⟨_, hs⟩ | ⟨_, _, hs⟩ | ⟨m, q, q', _, hq, hm, hs⟩ | ⟨m, q, _, hq, _, _, hs⟩
    | ⟨m, q, _, hq, hm, _, hs⟩ := handOver_cases d a ws s <;> rw [hs]
  · exact reportAll_kept _ _ s
  · exact takeUp_kept fun _ _ => ⟨⟨.nil, nofun⟩, fun n hn => by cases hn; exact Nat.zero_le 11⟩
  · exact kept_port s rfl fun _ =>
      (queueSound_of_keys (by simp [hq, mergeInto_keys hm]) rfl)
  · exact ((count_kept _ s).trans (setPart_kept _ _)).trans (reportAll_kept _ _ _)
  · refine kept_port s rfl fun _ h => ?_
    obtain ⟨hwaiting, hhead⟩ := (queueSound_cons hq).1 h
    exact (queueSound_cons rfl).2 ⟨hwaiting.append (mergeInto_none.1 hm) rfl, hhead⟩

theorem send_kept (d : Nat) (a : Answer) (s : State) : Kept s₀ 0 s (send d a s) :=
  handOver_kept d a [] s

theorem refuse_kept (d : Nat) (x : Identity) (k : ReqKind) (r : Reason) (s : State) :
    Kept s₀ 0 s (refuse d x k r s) :=
  (count_kept _ s).trans (send_kept _ _ _)

theorem holdoff_kept (x : Identity) (s : State) : Kept s₀ 0 s (holdoff x s) :=
  ((kept_deferrals s _).trans (count_kept _ _)).trans (send_kept _ _ _)

/-- Messages that have waited may become the head in order (R127). -/
theorem promote_kept {l : List QueuedMessage} {s : State} (h : QueueSound s₀ → WaitingSound l) :
    Kept s₀ 0 s (promote l s) := by
  induction l generalizing s with
  | nil => exact kept_port s rfl fun _ _ => queueSound_nil rfl
  | cons m rest ih =>
    have hrest (h₀ : QueueSound s₀) : WaitingSound rest :=
      (h h₀).sublist (List.sublist_cons_self m rest)
    rw [promote]
    split
    case isTrue => exact ((count_kept _ s).trans (reportAll_kept _ _ _)).trans (ih hrest)
    case isFalse =>
      refine takeUp_kept fun h₀ _ => ⟨hrest h₀, fun n hn => ?_⟩
      cases hn
      exact ((h h₀).2 m List.mem_cons_self).trans_le (Nat.zero_le 11)

end Operations

end Sys2Proof.Machine
end

section
/-! What the operations on contexts, resolution, the arbiter and the taking of commands and requests
keep (spec/04, spec/06, spec/07, spec/10). -/

namespace Sys2Proof.Machine

-- One lemma is elaborated after another, which keeps the check's memory low.
set_option Elab.async false

variable {s₀ : State}

/-! ### Closing contexts (R63, R84) -/

theorem withdraw_kept (i : Index) (s : State) : Kept s₀ 1 s (withdraw i s) := by
  obtain ⟨_, hs⟩ | ⟨_, hs⟩ := withdraw_cases i s
  · exact hs ▸ freeEntry_kept i s
  · exact (Kept.of_eq hs).mono

theorem setContext_none_kept (c : CtxNum) (s : State) : Kept s₀ 0 s (setContext c none s) :=
  setContext_kept fun _ _ => nofun

theorem closeContext_kept (c : CtxNum) (s : State) : Kept s₀ 1 s (closeContext c s) := by
  obtain ⟨_, hs⟩ | ⟨_, _, _, hs⟩ | ⟨_, o, _, _, hs⟩ := closeContext_cases c s
  · exact (Kept.of_eq hs).mono
  · exact hs ▸ (setContext_none_kept c s).mono
  · exact hs ▸ (withdraw_kept o.entry s).trans (setContext_none_kept c _)

theorem closeRefused_kept (c : CtxNum) (k : ReqKind) (r : Reason) (s : State) :
    Kept s₀ 1 s (closeRefused c k r s) := by
  unfold closeRefused
  split
  · exact (Kept.refl s₀ s).mono
  · exact (closeContext_kept c s).trans (refuse_kept _ _ _ _ _)

theorem closeUnasked_kept (c : CtxNum) (r : Reason) (s : State) :
    Kept s₀ 1 s (closeUnasked c r s) :=
  (kept_freeUsed s (Nat.le_succ _)).trans (closeRefused_kept _ _ _ _)

theorem closeDuplicate_kept (c : CtxNum) (s : State) : Kept s₀ 1 s (closeDuplicate c s) :=
  (count_kept _ s).trans (closeUnasked_kept _ _ _)

theorem probeDuplicate_kept (i : Index) (c : CtxNum) (s : State) :
    Kept s₀ 2 s (probeDuplicate i c s) :=
  (addDuplicate_kept i s).trans (closeDuplicate_kept c _)

/-- A chain of changes, each of which advances no generation more than once. -/
theorem foldl_kept {α : Type} {f : State → α → State} (l : List α)
    (h : ∀ a s, Kept s₀ 1 s (f s a)) (s : State) : Kept s₀ l.length s (l.foldl f s) := by
  induction l generalizing s with
  | nil => exact Kept.refl s₀ s
  | cons a l ih =>
    exact ((h a s).trans (ih (f s a))).mono (by rw [List.length_cons]; omega)

theorem closeAll_kept (s : State) : Kept s₀ 8 s (closeAll s) :=
  foldl_kept (List.finRange 8) closeContext_kept s

theorem closeCollecting_kept (s : State) : Kept s₀ 8 s (closeCollecting s) := by
  refine foldl_kept (List.finRange 8) (fun c s => ?_) s
  split
  · exact closeUnasked_kept c .suspended s
  · exact (Kept.refl s₀ s).mono

/-! ### Resolution (R75 to R79) -/

section Resolution

variable {s t : State} {x : Exchange} {i : Index} {a : Nat}

theorem addressHeldByOther_eq_false :
    addressHeldByOther s a i = false ↔
      ∀ j, j ≠ i → (entry s j).occupied = true → (entry s j).address ≠ some a := by
  simp [addressHeldByOther]

theorem identityHeldByOther_eq_false {y : Identity} :
    identityHeldByOther s y i = false ↔
      ∀ j, j ≠ i → (entry s j).occupied = true → (entry s j).identity ≠ some y := by
  simp [identityHeldByOther]

/-- The settled target holds the context's identity under a lease (R75). -/
theorem settledTarget_some (h : settledTarget s x = some i) :
    x.target = some i ∧ (entry s i).occupied = true ∧ (entry s i).identity = some x.identity
      ∧ (entry s i).leased = true := by
  obtain ⟨ht, hi⟩ := Option.filter_eq_some_iff.1 h
  simpa [ht, and_assoc] using hi

/-- A join without a target takes an address of the grant range (R21). -/
theorem chosenAddress_none {hint : Nat} (h : chosenAddress s none hint = some a) :
    s.phase.params.grantLow ≤ a ∧ a ≤ s.phase.params.grantHigh ∧ addressFree s a = true := by
  simp only [chosenAddress] at h
  split at h
  case isTrue hh =>
    cases h
    obtain ⟨_, hlow, hhigh, hfree⟩ := hh
    exact ⟨hlow, hhigh, hfree⟩
  case isFalse =>
    have hmem := List.mem_of_find?_eq_some h
    have hp := List.find?_some h
    simp only [Bool.and_eq_true, decide_eq_true_eq] at hp
    exact ⟨hp.1, Nat.le_of_lt_succ (List.mem_range.1 hmem), hp.2⟩

theorem joinEntry_cases {target : Option Index} (h : joinEntry s target = some (i, t)) :
    (target = some i ∧ t = s) ∨ (target = none ∧ allocate s = some (i, t)) := by
  cases target with
  | none => exact .inr ⟨rfl, h⟩
  | some j =>
    cases h
    exact .inl ⟨rfl, rfl⟩

/-- Allocation changes one entry and its causes at most. -/
theorem allocate_frame (h : allocate s = some (i, t)) :
    t.phase = s.phase ∧ t.join = s.join ∧ t.port = s.port ∧ t.lookup = s.lookup := by
  obtain ⟨_, rfl⟩ | ⟨_, _, rfl⟩ := allocate_cases h
  · exact ⟨rfl, rfl, rfl, rfl⟩
  · exact ⟨rfl, rfl, rfl, rfl⟩

theorem joinEntry_frame {target : Option Index} (h : joinEntry s target = some (i, t)) :
    t.phase = s.phase ∧ t.join = s.join ∧ t.port = s.port ∧ t.lookup = s.lookup := by
  obtain ⟨_, rfl⟩ | ⟨_, hal⟩ := joinEntry_cases h
  · exact ⟨rfl, rfl, rfl, rfl⟩
  · exact allocate_frame hal

theorem joinEntry_kept {target : Option Index} (h : joinEntry s target = some (i, t)) :
    Kept s₀ 1 s t := by
  obtain ⟨_, rfl⟩ | ⟨_, hal⟩ := joinEntry_cases h
  · exact (Kept.refl s₀ t).mono
  · exact allocate_kept hal

/-- The address of a join lies in 1..239: its target's does, and so does the grant range. -/
theorem chosenAddress_range {target : Option Index} {hint : Nat}
    (hj : joinEntry s target = some (i, t)) (hc : chosenAddress s target hint = some a)
    (ht : TableSound t) : 1 ≤ a ∧ a ≤ 239 := by
  obtain ⟨rfl, rfl⟩ | ⟨rfl, hal⟩ := joinEntry_cases hj
  · have ha : (entry t i).address = some a := hc
    obtain ⟨b, hb, h1, h2⟩ :=
      (ht.2.1 i).address_of_occupied ((ht.2.1 i).occupied_of_address ha)
    cases ha.symm.trans hb
    exact ⟨h1, h2⟩
  · obtain ⟨hlow, hhigh, _⟩ := chosenAddress_none hc
    have hp : ParamsSound s.phase.params := (allocate_frame hal).1 ▸ ht.1
    exact ⟨hp.grantLow_pos.trans hlow, hhigh.trans hp.grantHigh_le⟩

theorem chosenWindow_inRange {p : Params} (hp : ParamsSound p) (hx : ExchangeInRange x) (cls : Cls) :
    1 ≤ chosenWindow p x cls ∧ chosenWindow p x cls ≤ 64 := by
  obtain ⟨hcap1, hcap64⟩ := hp.windowCap_inRange cls
  obtain ⟨_, _, _, _, _, _, hwindow, _⟩ := hx
  unfold chosenWindow
  split
  case h_1 => exact ⟨hcap1, hcap64⟩
  case h_2 w hw =>
    have := hwindow w hw
    omega

/-- A context that is offered terms keeps what it holds in range. -/
theorem ExchangeInRange.offered {o : Offer} (h : ExchangeInRange x)
    (hw : 1 ≤ o.window ∧ o.window ≤ 64) (hl : TicksInRange o.lease) (ht : o.turn = x.lastTurn + 1) :
    ExchangeInRange { x with stage := .offered o } := by
  obtain ⟨hset, hlease, hhint, hpages, hturn, hgroups, hwindow, hlabel, hcap, hleaseCap, _, _⟩ := h
  exact ⟨hset, hlease, hhint, hpages, hturn, hgroups, hwindow, hlabel, hcap, hleaseCap, nofun,
    fun p hp => by cases hp; exact ⟨hw.1, hw.2, hl, ht⟩⟩

theorem ExchangeInRange.with_target (h : ExchangeInRange x) (target : Option Index) :
    ExchangeInRange { x with target := target } := h

theorem ExchangeInRange.checking {n : Nat} {p : ProbeTimer} (h : ExchangeInRange x)
    (hn : 1 ≤ n ∧ n ≤ 7) : ExchangeInRange { x with stage := .checking n p } := by
  obtain ⟨hset, hlease, hhint, hpages, hturn, hgroups, hwindow, hlabel, hcap, hleaseCap, _, _⟩ := h
  exact ⟨hset, hlease, hhint, hpages, hturn, hgroups, hwindow, hlabel, hcap, hleaseCap,
    fun m q hm => by cases hm; exact hn, nofun⟩

theorem ExchangeInRange.collecting {d : Nat} (h : ExchangeInRange x) :
    ExchangeInRange { x with stage := .collecting d } := by
  obtain ⟨hset, hlease, hhint, hpages, hturn, hgroups, hwindow, hlabel, hcap, hleaseCap, _, _⟩ := h
  exact ⟨hset, hlease, hhint, hpages, hturn, hgroups, hwindow, hlabel, hcap, hleaseCap, nofun, nofun⟩

theorem entryInRange_reserved {t : Terms} (hx : ExchangeInRange x)
    (hw : 1 ≤ t.window ∧ t.window ≤ 64) (hg : t.groups = x.groupsPage.getD []) :
    EntryInRange (reservedEntry x a t) := by
  obtain ⟨_, _, _, _, _, hgroups, _, hlabel, _⟩ := hx
  refine ⟨fun u hu => ?_, hlabel, nofun, nofun⟩
  cases hu
  refine ⟨hw.1, hw.2, ?_⟩
  rw [hg]
  cases hp : x.groupsPage with
  | none => exact groupsInRange_nil
  | some g => exact hgroups g hp

/-- Parameters and contexts, of which an offer is made, are in range. -/
def ContextsInRange (s : State) : Prop :=
  ParamsSound s.phase.params ∧ ∀ c x, context s c = some x → ExchangeInRange x

theorem ValuesInRange.contexts (h : ValuesInRange s) : ContextsInRange s := ⟨h.1, h.2.2.1⟩

theorem reserveAndOffer_kept {c : CtxNum} {cls : Cls} {window lease : Nat}
    (ht : TableSound s₀ → TableSound s →
      EntryFits i (reservedEntry x a ⟨cls, window, x.groupsPage.getD []⟩) s)
    (hx : ContextsInRange s →
      ExchangeInRange x ∧ (1 ≤ window ∧ window ≤ 64) ∧ TicksInRange lease) :
    Kept s₀ 1 s (reserveAndOffer c x i a cls window lease s) := by
  have hentry : Kept s₀ 1 s (changeEntry i
      (reservedEntry x a ⟨cls, window, x.groupsPage.getD []⟩) (reserveCauses (entry s i)) s) :=
    changeEntry_kept _ ht fun _ h => entryInRange_reserved (hx h.contexts).1 (hx h.contexts).2.1 rfl
  refine (hentry.trans (setContext_kept fun _ h y hy => ?_)).trans (send_kept _ _ _)
  obtain ⟨hxr, hw, hl⟩ := hx h.contexts
  cases hy
  exact hxr.offered hw hl rfl

theorem resolveTerms_kept (c : CtxNum) (s : State) : Kept s₀ 2 s (resolveTerms c s) := by
  obtain ⟨_, hs⟩ | ⟨r, _, hs⟩ | hs | ⟨x, cls, a, i, t, hx, _, ha, hj, hheld, hs⟩ :=
    resolveTerms_cases c s <;> rw [hs]
  · exact (Kept.refl s₀ s).mono
  · exact (closeRefused_kept _ _ _ s).mono
  · exact ((setPart_kept _ s).trans (closeRefused_kept _ _ _ _)).mono
  · rw [Bool.or_eq_false_iff, addressHeldByOther_eq_false, identityHeldByOther_eq_false] at hheld
    obtain ⟨hphase, hjoin, _, _⟩ := joinEntry_frame hj
    refine (joinEntry_kept hj).trans (reserveAndOffer_kept (fun _ ht => ?fits) fun hr => ?range)
    case fits =>
      obtain ⟨h1, h2⟩ := chosenAddress_range hj ha ht
      refine ⟨entrySound_reserved _ _ h1 h2, fun j hne => ⟨fun b hb hjb => ?_, fun y hy hjy => ?_⟩⟩
      · cases hb
        exact hheld.1 j hne ((ht.2.1 j).occupied_of_address hjb) hjb
      · cases hy
        exact hheld.2 j hne ((ht.2.1 j).occupied_of_identity hjy) hjy
    case range =>
      obtain ⟨hp, hcontexts⟩ := hr
      rw [hphase] at hp
      have hxr : ExchangeInRange x := hcontexts c x (by rwa [context, hjoin])
      obtain ⟨_, _, _, _, _, _, _, _, _, hleaseCap, _⟩ := id hxr
      exact ⟨hxr, chosenWindow_inRange hp hxr cls, hp.clampLease_inRange _ hleaseCap⟩

/-- A CHECK uses one more try, of which there are seven at most (R94, R96). -/
theorem sendCheck_kept {c : CtxNum} {tries : Nat}
    (hx : ContextsInRange s → ExchangeInRange x ∧ tries + 1 ≤ 7) :
    Kept s₀ 0 s (sendCheck c x tries a s) := by
  refine ((kept_nextToken s _).trans (setContext_kept fun _ h y hy => ?_)).trans
    (handOver_kept _ _ _ _)
  obtain ⟨hxr, htries⟩ := hx h.contexts
  cases hy
  exact hxr.checking ⟨Nat.le_add_left 1 tries, htries⟩

theorem resolve_kept (c : CtxNum) (s : State) : Kept s₀ 2 s (resolve c s) := by
  unfold resolve
  split
  · exact (Kept.refl s₀ s).mono
  case h_2 x hx =>
    split
    · exact (sendCheck_kept (tries := 0) fun hr => ⟨(hr.2 c x hx).with_target _, by omega⟩).mono
    · exact resolveTerms_kept c s

theorem probeGone_kept (i : Index) (s : State) : Kept s₀ 2 s (probeGone i s) := by
  unfold probeGone
  split
  · exact (Kept.refl s₀ s).mono
  · exact resolveTerms_kept _ s

end Resolution

/-! ### The arbiter (R109) -/

/-- A lookup unit in which the arbiter may decide: only that nothing waits without a walk is left to it. -/
def Arbitrable (l : LookupUnit) : Prop :=
  l.busWaiting.length ≤ Config.busFinds ∧ ∀ w, l.walk = some w → WalkSound w

theorem arbitrate_eq_lookup (s : State) :
    arbitrate s = { s with lookup := (arbitrate s).lookup } := by
  obtain hs | ⟨_, _, _, _, hs⟩ | ⟨_, _, _, hs⟩ := arbitrate_cases s <;> rw [hs] <;> rfl

theorem LookupSound.arbitrable {s : State} (h : LookupSound s) : Arbitrable s.lookup := h.2

theorem startBus_lookupSound {s : State} {r : FindRequest} {rest : List FindRequest}
    (hb : s.lookup.busWaiting = r :: rest) (h : Arbitrable s.lookup) :
    LookupSound (startBus r rest s) := by
  have hlen := h.1
  rw [hb, List.length_cons] at hlen
  refine ⟨nofun, Nat.le_of_succ_le hlen, fun w he => ?_⟩
  cases he
  exact Nat.zero_lt_succ 3

theorem startHost_lookupSound {s : State} {r : LookupRequest} (h : Arbitrable s.lookup) :
    LookupSound (startHost r s) := by
  refine ⟨nofun, h.1, fun w he => ?_⟩
  cases he
  exact Nat.zero_lt_succ 7

/-- After the arbiter's decision nothing waits without a walk. -/
theorem arbitrate_lookupSound {s : State} (h : Arbitrable s.lookup) : LookupSound (arbitrate s) := by
  unfold arbitrate
  split
  case h_1 w hw => exact ⟨fun hn => absurd (hw.symm.trans hn) nofun, h⟩
  case h_2 hw =>
    split
    case h_1 hb hh => exact ⟨fun _ => ⟨hb, hh⟩, h⟩
    case h_2 r rest hb hh => exact startBus_lookupSound hb h
    case h_3 r hb hh => exact startHost_lookupSound h
    case h_4 r rest q hb hh =>
      split
      case h_1 => exact startHost_lookupSound h
      case h_2 => exact startBus_lookupSound hb h

/-- A new lookup unit is put before the arbiter after a change that leaves the unit as it is. -/
theorem arbitrate_kept {n : Nat} {s t : State} {l : LookupUnit}
    (h : Kept s₀ n { s with lookup := l } t) (ht : t.lookup = l)
    (hl : LookupSound s → Arbitrable l) : Kept s₀ n s (arbitrate t) := by
  have hsound (hs : LookupSound s) : LookupSound (arbitrate t) :=
    arbitrate_lookupSound (ht ▸ hl hs)
  rw [arbitrate_eq_lookup] at hsound ⊢
  exact h.with_lookup hsound

/-! ### Taking a command, a transaction or a request (R124, R161, R163) -/

theorem takeCommand_kept {n : Nat} {code : Byte} {suits : Nat → Bool}
    {body : List Byte → State → State} (f : CommandFrame) (s : State)
    (h : ∀ u, suits f.params.length = true → Kept s₀ n u (body f.params u)) :
    Kept s₀ n s (takeCommand code suits f body s) := by
  obtain ⟨_, hs⟩ | ⟨_, _, _, hs⟩ | ⟨_, _, _, hs⟩ | ⟨_, _, hm, hs⟩ :=
    takeCommand_cases code suits f body s <;> rw [hs]
  · exact (kept_host s _).mono
  · exact (kept_host s _).mono
  · exact ((accept_kept f s).trans (finish_kept _ _ _)).mono
  · simp only [malformed, Bool.or_eq_false_iff, Bool.not_eq_false'] at hm
    exact ((accept_kept f s).trans (h _ hm.2)).mono

theorem takeTransaction_kept {own : State → State} {s : State} (h : Kept s₀ 0 s (own s)) :
    Kept s₀ 0 s (takeTransaction own s) := by
  obtain ⟨_, hs⟩ | ⟨_, hs⟩ := takeTransaction_cases own s <;> rw [hs]
  · exact Kept.refl s₀ s
  · exact h

/-- A request leaves the buffer as its owner takes it; it has passed the port's content test. -/
theorem dispatch_kept {n : Nat} {k : ReqKind} {owner : Request → State → State} {s : State}
    (h : ∀ r u, (ValuesInRange s → contentOk k r.payload = true) → Kept s n u (owner r u)) :
    Kept s n s (dispatch k owner s) := by
  obtain ⟨hs, _⟩ | ⟨r, rest, hi, hk, hs⟩ := dispatch_cases k owner s <;> rw [hs]
  · exact (Kept.refl s s).mono
  · have hpop : Kept s 0 s { s with port.inbound := rest } :=
      kept_inbound s rest fun ht q hq => ht q (hi ▸ List.mem_cons_of_mem r hq)
    refine (hpop.trans (h r _ fun hv => ?_)).mono
    obtain ⟨_, _, _, _, _, hin, _⟩ := hv
    exact hk ▸ hin r (hi ▸ List.mem_cons_self)

end Sys2Proof.Machine
end

section
/-! What the commands of the host keep (spec/03, spec/06, spec/08, spec/09, spec/11). -/

namespace Sys2Proof.Machine

-- One lemma is elaborated after another, which keeps the check's memory low.
set_option Elab.async false

variable {s₀ : State} {p : List Byte}

/-! ### Admission (spec/03) -/

/-- A rule that passes R50's test 1 has its caps as its verdict says (R44). -/
theorem readRule_inRange {r : FilterRule} (h : readRule p = some r) : RuleInRange r := by
  obtain hv | hv | hv | hv := verdictByte_cases (byteAt p 17).toNat
  · rw [readRule_admits hv, Option.ite_none_right_eq_some, Option.some.injEq] at h
    obtain ⟨_, rfl⟩ := h
    simp [RuleInRange]
  · rw [readRule_refuse hv, Option.ite_none_right_eq_some, Option.some.injEq] at h
    obtain ⟨_, rfl⟩ := h
    simp [RuleInRange]
  · rw [readRule_admitCapped hv, Option.ite_none_right_eq_some, Option.some.injEq] at h
    obtain ⟨⟨hcap, hlease⟩, rfl⟩ := h
    refine ⟨by simp, fun c hc => by cases hc; exact hcap, fun n hn => ⟨rfl, ?_⟩⟩
    obtain ⟨hpos, hn⟩ := Option.ite_none_left_eq_some.1 hn
    cases hn
    exact ⟨Nat.pos_of_ne_zero hpos, hlease⟩
  · rw [readRule_unknown hv] at h
    cases h

theorem filterPut_kept (s : State) : Kept s₀ 0 s (filterPut p s) := by
  simp only [filterPut]
  split
  · exact finish_kept _ _ s
  case h_2 r hr =>
    split
    · exact finish_kept _ _ s
    split
    · exact finish_kept _ _ s
    case isFalse hfull =>
      refine (kept_filter s _ fun ⟨hrules, _⟩ => ⟨fun q hq => ?_, ?_⟩).trans (finish_kept _ _ _)
      · obtain hq | hq := List.mem_append.1 hq
        · exact hrules q (List.mem_of_mem_take hq)
        · obtain rfl | hq := List.mem_cons.1 hq
          · exact readRule_inRange hr
          · exact hrules q (List.mem_of_mem_drop hq)
      · simp only [List.length_append, List.length_cons, List.length_take, List.length_drop]
        omega

theorem filterRemove_kept (s : State) : Kept s₀ 0 s (filterRemove p s) := by
  simp only [filterRemove]
  split
  · exact finish_kept _ _ s
  · refine (kept_filter s _ fun ⟨hrules, hlen⟩ => ⟨fun q hq => ?_, ?_⟩).trans (finish_kept _ _ _)
    · exact hrules q (List.mem_of_mem_eraseIdx hq)
    · exact (List.length_eraseIdx_le _ _).trans hlen

theorem filterRead_kept (s : State) : Kept s₀ 0 s (filterRead p s) := by
  simp only [filterRead]
  split <;> exact finish_kept _ _ s

theorem readDeferrals_kept (s : State) : Kept s₀ 0 s (readDeferrals p s) := by
  simp only [readDeferrals]
  split <;> exact finish_kept _ _ s

/-! ### Phases and parameters (spec/08) -/

theorem configure_kept (s : State) : Kept s₀ 0 s (configure p s) := by
  simp only [configure]
  split
  · exact finish_kept _ _ s
  split
  · exact finish_kept _ _ s
  split
  · exact finish_kept _ _ s
  case isFalse hbad =>
    simp only [Bool.not_eq_true] at hbad
    have hset : Kept s₀ 0 s { s with
        phase.params := applySettings s.phase.params (readSettings p) } :=
      ⟨rfl, le_rfl, le_rfl,
        fun ⟨hclock, htimer, hticks, howed, hsettle⟩ => ⟨hclock, htimer, hticks, howed,
          applySettings_keeps (P := fun q => q.settle ≤ 255) (fun _ _ _ => settle_put) hsettle
            (badValues_eq_false hbad).1⟩,
        id, fun _ => id, Advanced.refl 0 s, fun _ ⟨hp, hrest⟩ => ⟨hp.applySettings hbad, hrest⟩,
        fun _ ⟨hp, hrest⟩ => ⟨hp.applySettings hbad, hrest⟩⟩
    split
    · exact hset.trans (finish_kept _ _ _)
    · exact (hset.trans (kept_line
        (p := { s.port with quietCarried := quietBits s, quietFrom := s.now }) _ rfl rfl rfl)).trans
        (finish_kept _ _ _)

theorem readParameter_kept (s : State) : Kept s₀ 0 s (readParameter p s) := by
  unfold readParameter
  split <;> exact finish_kept _ _ s

/-- ENABLE starts the clock and leaves OFFLINE in one change. -/
theorem startPart_kept {s : State} (h : s.phase.phase = .offline) : Kept s₀ 0 s (startPart s) := by
  simp only [startPart]
  split
  case isTrue =>
    refine Kept.then_setPart (kept_phase s rfl fun ⟨_, htimer, _, howed, hsettle⟩ => ?_)
    rw [h] at htimer howed
    have hnone : s.phase.settle = none := by simpa using htimer
    refine ⟨by simp, by simp [hnone], by simp [hnone], fun ho => ?_, hsettle⟩
    cases howed ho
  case isFalse hne =>
    refine Kept.then_setPart (kept_phase s rfl fun ⟨_, _, _, _, hsettle⟩ => ?_)
    refine ⟨by simp, by simp, fun n hn => ?_, fun _ => rfl, hsettle⟩
    cases hn
    exact ⟨Nat.pos_of_ne_zero hne, hsettle⟩

theorem enable_kept (s : State) : Kept s₀ 0 s (enable s) := by
  unfold enable
  split
  case isTrue h => exact (startPart_kept h).trans (finish_kept _ _ _)
  case isFalse => exact finish_kept _ _ s

/-- The clock runs on from one of ACTIVE and SUSPENDED to the other. -/
theorem enterPhase_kept {s : State} {q : Phase} (ho : s.phase.phase ≠ .offline)
    (hs : s.phase.phase ≠ .settling) (hqo : q ≠ .offline) (hqs : q ≠ .settling) :
    Kept s₀ 0 s (enterPhase q s) := by
  refine (kept_phase (p := { s.phase with phase := q }) (l := s.lease) s rfl
    fun ⟨hclock, htimer, hticks, howed, hsettle⟩ => ?_).trans (setPart_kept _ _)
  exact ⟨by simpa [hqo, ho] using hclock, by simpa [hqs, hs] using htimer, hticks,
    fun h => absurd (howed h) hs, hsettle⟩

theorem suspend_kept (s : State) : Kept s₀ 8 s (suspend s) := by
  unfold suspend
  split
  case isTrue h =>
    have henter : Kept s₀ 0 s (enterPhase .suspended s) := by
      apply enterPhase_kept <;> simp [h]
    exact (henter.trans (closeCollecting_kept _)).trans (finish_kept _ _ _)
  case isFalse => exact (finish_kept _ _ s).mono

theorem resume_kept (s : State) : Kept s₀ 0 s (resume s) := by
  unfold resume
  split
  case isTrue h =>
    have henter : Kept s₀ 0 s (enterPhase .active s) := by
      apply enterPhase_kept <;> simp [h]
    exact henter.trans (finish_kept _ _ _)
  case isFalse => exact finish_kept _ _ s

/-! ### Tearing down (spec/07.8, spec/08.1, spec/11.8) -/

theorem purgePort_kept (s : State) : Kept s₀ 0 s (purgePort s) := by
  have hempty : Kept s₀ 0 s { s with port.inbound := [] } := kept_inbound s [] fun _ => nofun
  unfold purgePort
  split
  · refine Kept.then_reportAll (Kept.trans (n := 0) (m := 0) hempty ?_)
    refine kept_port _ rfl fun _ h => ?_
    obtain ⟨_, hhead⟩ := queueSound_iff.1 h
    refine queueSound_iff.2 ⟨?_, fun m hm => hhead m (by simpa [List.head?_take] using hm)⟩
    cases s.port.queue <;> exact ⟨.nil, nofun⟩
  · refine Kept.then_reportAll (Kept.trans (n := 0) (m := 0) hempty ?_)
    exact kept_port _ rfl fun _ _ => queueSound_nil rfl

theorem purgeLookups_kept (s : State) : Kept s₀ 0 s (purgeLookups s) := by
  simp only [purgeLookups]
  split
  · exact arbitrate_kept (Kept.refl s₀ _) rfl fun _ => ⟨Nat.zero_le _, nofun⟩
  case h_2 hw =>
    exact kept_lookup s _ fun h => ⟨fun hn => absurd (hw.symm.trans hn) nofun, Nat.zero_le _, h.2.2⟩
  case h_3 => exact kept_lookup s _ fun h => ⟨fun hn => ⟨rfl, (h.1 hn).2⟩, Nat.zero_le _, h.2.2⟩

theorem tearDown_kept (s : State) : Kept s₀ 8 s (tearDown s) :=
  (((closeAll_kept s).trans (kept_deferrals _ _)).trans (purgeLookups_kept _)).trans
    (purgePort_kept _)

theorem finishTearDown_kept (data : State → List Byte) (s : State) :
    Kept s₀ 0 s (finishTearDown data s) := by
  unfold finishTearDown
  split
  · exact waitFor_kept _ s
  · exact finish_kept _ _ s

/-- DISABLE enters OFFLINE with both timers stopped in one change. -/
theorem enterOffline_kept (s : State) :
    Kept s₀ 0 s (stopClock
      (enterPhase .offline { s with phase.settle := none, phase.settleOwed := false })) :=
  (kept_phase (p := { s.phase with phase := .offline, settle := none, settleOwed := false })
      (l := { nextTick := none, owed := Vector.replicate 160 0 }) s rfl
      fun h => ⟨by simp, by simp, nofun, nofun, h.2.2.2.2⟩).trans
    (setPart_kept partPhase _)

theorem disable_kept (s : State) : Kept s₀ 8 s (disable s) := by
  unfold disable
  split
  · exact (finish_kept _ _ s).mono
  · exact ((enterOffline_kept s).trans (tearDown_kept _)).trans (finishTearDown_kept _ _)

theorem portRestart_kept (s : State) :
    Kept s₀ 8 s (finishTearDown (fun _ => []) (tearDown s)) :=
  (tearDown_kept s).trans (finishTearDown_kept _ _)

theorem flush_kept (s : State) : Kept s₀ 160 s (flush s) := by
  unfold flush
  split
  · exact (finish_kept _ _ s).mono
  · refine ((kept_deferrals s []).trans
      (foldl_kept (List.finRange 160) (fun i u => ?_) _)).then_finish.mono (by simp)
    split
    · exact freeEntry_kept i u
    · exact (Kept.refl s₀ u).mono

/-! ### Entry commands (spec/11.4 to spec/11.6) -/

section Searches

variable {s t : State} {a : Nat} {x : Identity} {i : Index}

theorem entryAt_none : entryAt s a = none ↔ AddressUnheld s a := by
  refine ⟨fun h i ho ha => ?_, entryAt_unheld⟩
  rw [entryAt, List.find?_eq_none] at h
  exact h i (List.mem_finRange i) (by simp [ho, ha])

theorem entry_freeEntry (i j : Index) (s : State) :
    entry (freeEntry i s) j =
      if j = i then
        { Entry.freeAt (entry s i).generation with
          generation := nextGeneration (entry s i) (Entry.freeAt (entry s i).generation) }
      else entry s j :=
  entry_changeEntry i j _ _ s

theorem freeEntry_occupied {j : Index} (h : (entry (freeEntry i s) j).occupied = true) :
    j ≠ i ∧ entry (freeEntry i s) j = entry s j := by
  rw [entry_freeEntry] at h ⊢
  split at h
  · cases h
  case isFalse hj => exact ⟨hj, if_neg hj⟩

theorem allocate_occupied {j : Index} (h : allocate s = some (i, t))
    (ho : (entry t j).occupied = true) : entry t j = entry s j := by
  obtain ⟨_, rfl⟩ | ⟨_, _, rfl⟩ := allocate_cases h
  · rfl
  · exact (freeEntry_occupied ho).2

/-- Allocation gives up addresses and identities and takes none. -/
theorem AddressUnheld.allocate (ha : AddressUnheld s a) (h : allocate s = some (i, t)) :
    AddressUnheld t a := fun j ho hj =>
  ha j (allocate_occupied h ho ▸ ho) (allocate_occupied h ho ▸ hj)

theorem IdentityUnheld.allocate (hx : IdentityUnheld s x) (h : allocate s = some (i, t)) :
    IdentityUnheld t x := fun j ho hj =>
  hx j (allocate_occupied h ho ▸ ho) (allocate_occupied h ho ▸ hj)

end Searches

theorem guard_eq_some {q : Prop} [Decidable q] {u : Unit} :
    (guard q : Option Unit) = some u ↔ q := by
  simp

/-- ADD-STATIC's fields as its checks leave them. -/
theorem readStatic_fields {x : StaticFields} (h : readStatic p = some x) :
    (1 ≤ x.address ∧ x.address ≤ 239)
      ∧ (1 ≤ x.terms.window ∧ x.terms.window ≤ 64) ∧ GroupsInRange x.terms.groups
      ∧ ∀ l, x.label = some l → readLabel p 17 = some l := by
  simp only [readStatic, Option.bind_eq_bind, Option.bind_eq_some_iff, guard_eq_some,
    exists_const] at h
  obtain ⟨hrange, _, cls, _, window, hw, groups, hg, label, hl, hx⟩ := h
  cases hx
  refine ⟨hrange, readWindow_inRange hw, readGroups_inRange hg, fun l he => ?_⟩
  obtain ⟨_, hnone⟩ | ⟨v, _, hv, hsome⟩ := readWhen_eq_some hl
  · cases hnone.symm.trans he
  · cases hsome.symm.trans he
    exact hv

theorem entryInRange_static {x : StaticFields} (hp : p.length = 30) (h : readStatic p = some x) :
    EntryInRange (staticEntry x) := by
  obtain ⟨_, ⟨hw1, hw64⟩, hgroups, hlabel⟩ := readStatic_fields h
  refine ⟨fun t ht => ?_, fun l hl => readLabel_inRange (by omega) (hlabel l hl), nofun, nofun⟩
  cases ht
  exact ⟨hw1, hw64, hgroups⟩

theorem addStatic_kept (hp : p.length = 30) (s : State) : Kept s₀ 2 s (addStatic p s) := by
  unfold addStatic
  split
  · exact (finish_kept _ _ s).mono
  case h_2 x hx =>
    split
    · exact (finish_kept _ _ s).mono
    case isFalse ha =>
      split
      · exact (finish_kept _ _ s).mono
      case isFalse hid =>
        split
        · exact ((setPart_kept _ s).trans (finish_kept _ _ _)).mono
        case h_2 i t hal =>
          simp only [Bool.not_eq_true, entryAt_none,
            Option.any_eq_false, Option.isSome_eq_false_iff, Option.isNone_iff_eq_none,
            entryOf_none] at ha hid
          obtain ⟨⟨h1, h2⟩, _⟩ := readStatic_fields hx
          refine ((allocate_kept hal).trans (changeEntry_kept _ (fun _ ht => ?_)
            fun _ _ => entryInRange_static hp hx)).trans (finish_kept _ _ _)
          refine ht.fits_new (entrySound_static h1 h2) (fun b hb => ?_) fun y hy => ?_
          · cases hb
            exact ha.allocate hal
          · exact (hid y hy).allocate hal

/-- EDIT's settings as its checks leave them. -/
theorem readEdit_fields {x : EditFields} (h : readEdit p = some x) :
    (∀ w, x.window = some w → 1 ≤ w ∧ w ≤ 64) ∧ (∀ g, x.groups = some g → GroupsInRange g)
      ∧ (∀ l, x.label = some l → readLabel p 11 = some l)
      ∧ ∀ n, x.lease = some n → TicksInRange n := by
  simp only [readEdit, Option.bind_eq_bind, Option.bind_eq_some_iff, guard_eq_some,
    exists_const] at h
  obtain ⟨i, _, _, _, cls, _, window, hw, groups, hg, label, hl, lease, hn, hx⟩ := h
  cases hx
  refine ⟨fun w he => ?_, fun g he => ?_, fun l he => ?_, fun n he => ?_⟩
  · obtain ⟨_, hnone⟩ | ⟨v, _, hv, hsome⟩ := readWhen_eq_some hw
    · cases hnone.symm.trans he
    · cases hsome.symm.trans he
      exact readWindow_inRange hv
  · obtain ⟨_, hnone⟩ | ⟨v, _, hv, hsome⟩ := readWhen_eq_some hg
    · cases hnone.symm.trans he
    · cases hsome.symm.trans he
      exact readGroups_inRange hv
  · obtain ⟨_, hnone⟩ | ⟨v, _, hv, hsome⟩ := readWhen_eq_some hl
    · cases hnone.symm.trans he
    · cases hsome.symm.trans he
      exact hv
  · obtain ⟨_, hnone⟩ | ⟨v, _, hv, hsome⟩ := readWhen_eq_some hn
    · cases hnone.symm.trans he
    · cases hsome.symm.trans he
      exact readLease_inRange hv

/-- The value of a setting given, or the value that stood. -/
theorem or_inRange {α : Type} {P : α → Prop} {new old : Option α} (hn : ∀ v, new = some v → P v)
    (ho : ∀ v, old = some v → P v) (v : α) (h : new.or old = some v) : P v := by
  cases new with
  | none => exact ho v (by simpa using h)
  | some w => exact hn v (by simpa using h)

theorem EntryInRange.edited {x : EditFields} {e : Entry} (he : EntryInRange e)
    (hp : p.length = 26) (h : readEdit p = some x) : EntryInRange (editEntry x e) := by
  obtain ⟨hterms, hlabel, hlease, hremaining⟩ := he
  obtain ⟨hxw, hxg, hxl, hxn⟩ := readEdit_fields h
  refine ⟨fun t ht => ?_, fun l hl => ?_, or_inRange hxn hlease, fun n hn => ?_⟩
  · obtain ⟨u, hu, rfl⟩ := Option.map_eq_some_iff.1 ht
    obtain ⟨hw1, hw64, hgroups⟩ := hterms u hu
    have hwindow : 1 ≤ (editTerms x u).window ∧ (editTerms x u).window ≤ 64 := by
      cases hw : x.window with
      | none => simpa [editTerms, hw] using ⟨hw1, hw64⟩
      | some w => simpa [editTerms, hw] using hxw w hw
    refine ⟨hwindow.1, hwindow.2, ?_⟩
    cases hg : x.groups with
    | none => simpa [editTerms, hg] using hgroups
    | some g => simpa [editTerms, hg] using hxg g hg
  · simp only [editEntry] at hl
    split at hl
    · cases hl
    · exact or_inRange (fun l hl => readLabel_inRange (by omega) (hxl l hl)) hlabel l hl
  · simp only [editEntry] at hn
    split at hn
    · exact or_inRange hxn hremaining n hn
    · exact hremaining n hn

theorem applyEdit_kept {x : EditFields} {s : State} (hp : p.length = 26)
    (h : readEdit p = some x) (he : editable (entry s x.index) = true)
    (hc : cannotHold x (entry s x.index) = false) : Kept s₀ 1 s (applyEdit x s) :=
  changeEntry_kept _
    (fun _ hs => hs.fits ((hs.2.1 x.index).edited he hc) (fun _ => id) fun _ => id)
    fun _ hs => (hs.2.1 x.index).edited hp h

theorem edit_kept (hp : p.length = 26) (s : State) : Kept s₀ 1 s (edit p s) := by
  unfold edit
  split
  · exact (finish_kept _ _ s).mono
  case h_2 x hx =>
    simp only []
    split
    · exact (finish_kept _ _ s).mono
    split
    · exact (finish_kept _ _ s).mono
    split
    · exact (finish_kept _ _ s).mono
    case isFalse he =>
      split
      · exact (finish_kept _ _ s).mono
      case isFalse hc =>
        have happly : Kept s₀ 1 s (applyEdit x s) :=
          applyEdit_kept hp hx (by simpa using he) (by simpa using hc)
        split
        · exact (happly.trans (waitFor_kept _ _)).trans (handOver_kept _ _ _ _)
        · exact happly.trans (finish_kept _ _ _)

theorem afterEnding_kept (i : Index) (notify : Bool) (old : Entry) (reason : RevokeReason)
    (s : State) : Kept s₀ 2 s (afterEnding i notify old reason s) := by
  simp only [afterEnding]
  split
  · exact ((waitFor_kept _ s).trans (handOver_kept _ _ _ _)).trans (probeGone_kept _ _)
  · exact (finish_kept _ _ s).trans (probeGone_kept _ _)

theorem revoke_kept (s : State) : Kept s₀ 3 s (revoke p s) := by
  unfold revoke
  split
  · exact (finish_kept _ _ s).mono
  case h_2 x hx =>
    simp only []
    split
    · exact (finish_kept _ _ s).mono
    split
    · exact (finish_kept _ _ s).mono
    split
    · exact (finish_kept _ _ s).mono
    case isFalse hlive =>
      refine Kept.trans (n := 1) ?_ (afterEnding_kept _ _ _ _ _)
      split
      · exact freeEntry_kept _ s
      · exact endBinding_kept _ (by simpa using hlive)

theorem confirmable_iff {e : Entry} :
    confirmable e = true ↔ e.live = true ∧ e.dispute.present = true := by
  rw [confirmable, Bool.and_eq_true]

theorem confirmKeep_kept (s : State) : Kept s₀ 1 s (confirmKeep p s) := by
  unfold confirmKeep
  split
  · exact (finish_kept _ _ s).mono
  case h_2 x hx =>
    simp only []
    split
    · exact (finish_kept _ _ s).mono
    split
    · exact (finish_kept _ _ s).mono
    split
    · exact (finish_kept _ _ s).mono
    case isFalse hc =>
      exact (disputed_kept _ _ (confirmable_iff.1 (not_not.1 hc)).1).trans (finish_kept _ _ _)

theorem confirmEvict_kept (s : State) : Kept s₀ 3 s (confirmEvict p s) := by
  unfold confirmEvict
  split
  · exact (finish_kept _ _ s).mono
  case h_2 x hx =>
    simp only []
    split
    · exact (finish_kept _ _ s).mono
    split
    · exact (finish_kept _ _ s).mono
    split
    · exact (finish_kept _ _ s).mono
    split
    · exact (finish_kept _ _ s).mono
    case isFalse hc =>
      exact (endBinding_kept _ (confirmable_iff.1 (not_not.1 hc)).1).trans
        (afterEnding_kept _ _ _ _ _)

/-! ### Lookups and reads (spec/06, spec/09, spec/11.7) -/

theorem lookup_kept (s : State) : Kept s₀ 0 s (lookup p s) := by
  unfold lookup
  split
  · exact finish_kept _ _ s
  case h_2 r hr =>
    refine arbitrate_kept (l := { s.lookup with hostSlot := some r }) ?_ (by simp)
      fun h => h.arbitrable
    rw [waitFor_eq_host]
    exact kept_host _ _

theorem readEntry_kept (s : State) : Kept s₀ 0 s (readEntry p s) := by
  unfold readEntry
  split <;> exact finish_kept _ _ s

theorem findAddress_kept (s : State) : Kept s₀ 0 s (findAddress p s) := by
  simp only [findAddress]
  split
  · exact finish_kept _ _ s
  · split <;> exact finish_kept _ _ s

theorem readContext_kept (s : State) : Kept s₀ 0 s (readContext p s) := by
  simp only [readContext]
  split <;> exact finish_kept _ _ s

theorem nextChange_kept (s : State) : Kept s₀ 0 s (nextChange s) := by
  unfold nextChange
  split
  · exact Kept.then_finish (kept_change s rfl)
  · split
    · exact finish_kept _ _ s
    · exact Kept.then_finish (kept_change s rfl)

theorem readCounters_kept (s : State) : Kept s₀ 0 s (readCounters p s) := by
  unfold readCounters
  split
  · exact finish_kept _ _ s
  · refine Kept.trans (n := 0) ?_ (finish_kept _ _ _)
    split
    · exact kept_counters s _ fun _ k => by simp [Config.counterCeiling]
    · exact Kept.refl s₀ s

theorem interruptSetup_kept (s : State) : Kept s₀ 0 s (interruptSetup p s) := by
  unfold interruptSetup
  split
  · exact finish_kept _ _ s
  · simp only []
    split
    · exact Kept.then_finish (kept_change s rfl)
    · exact finish_kept _ _ s

/-! ### The host port (spec/10) -/

theorem fixReply_kept (s : State) : Kept s₀ 0 s (fixReply s) := by
  unfold fixReply
  split <;> exact kept_host s _

theorem takeStatus_kept (s : State) : Kept s₀ 0 s (takeStatus s) := by
  refine Kept.trans (n := 0) (m := 0) (kept_host s (takeStatus s).host) ?_
  exact kept_change _ rfl

theorem abortLookup_kept (s : State) : Kept s₀ 0 s (abortLookup s) := by
  unfold abortLookup
  split
  · exact arbitrate_kept (finish_kept _ _ _) (by simp) fun h => ⟨h.2.1, nofun⟩
  · exact arbitrate_kept (finish_kept _ _ _) (by simp) fun h => h.arbitrable
  · exact Kept.refl s₀ s

theorem dropEngineWaiter_keys (q : List QueuedMessage) :
    (dropEngineWaiter q).map QueuedMessage.key = q.map QueuedMessage.key := by
  rw [dropEngineWaiter, List.map_map]
  rfl

theorem abort_kept (s : State) : Kept s₀ 0 s (abort s) := by
  unfold abort
  split
  · exact Kept.refl s₀ s
  · exact Kept.refl s₀ s
  · split
    · exact abortLookup_kept s
    · split
      · refine Kept.then_finish (kept_port s rfl fun _ => ?_)
        exact queueSound_of_keys (dropEngineWaiter_keys s.port.queue) rfl
      · exact Kept.refl s₀ s
    · exact Kept.refl s₀ s
    · exact Kept.refl s₀ s

end Sys2Proof.Machine
end

section
/-! What the events of the bus, of the lookup unit and of the part's own timers keep (spec/02, spec/04
to spec/08). -/

namespace Sys2Proof.Machine

-- One lemma is elaborated after another, which keeps the check's memory low.
set_option Elab.async false

variable {s₀ : State}

/-! ### Lookups (spec/06) -/

theorem takeFind_kept (r : Request) (s : State) : Kept s₀ 0 s (takeFind r s) := by
  unfold takeFind
  split
  case isTrue hlt =>
    refine arbitrate_kept (Kept.refl s₀ _) rfl fun h => ⟨?_, h.2.2⟩
    rw [List.length_append]
    exact hlt
  case isFalse => exact (count_kept _ s).trans (send_kept _ _ _)

theorem examineBus_kept {r : FindRequest} {i : Index} {found : List FoundRecord} {s : State}
    (hw : s.lookup.walk = some (.bus r i found)) : Kept s₀ 0 s (examineBus r i found s) := by
  simp only [examineBus]
  split
  case isTrue => exact arbitrate_kept (send_kept _ _ _) (by simp) fun h => ⟨h.2.1, nofun⟩
  case isFalse hend =>
    refine kept_lookup s _ fun h => ⟨nofun, h.2.1, fun w he => ?_⟩
    cases he
    have hlen : found.length < 4 := h.2.2 _ hw
    simp only [not_or, findLimit] at hend
    refine lt_of_le_of_ne ?_ hend.1
    rw [List.length_append]
    exact Nat.add_le_add (Nat.le_of_lt_succ hlen) (Option.length_toList_le)

theorem examineHost_kept {r : LookupRequest} {i : Index} {found : List LookupRecord} {s : State}
    (hw : s.lookup.walk = some (.host r i found)) : Kept s₀ 0 s (examineHost r i found s) := by
  simp only [examineHost]
  split
  case isTrue => exact arbitrate_kept (finish_kept _ _ _) (by simp) fun h => ⟨h.2.1, nofun⟩
  case isFalse hend =>
    refine kept_lookup s _ fun h => ⟨nofun, h.2.1, fun w he => ?_⟩
    cases he
    have hlen : found.length < 8 := h.2.2 _ hw
    simp only [not_or, lookupLimit] at hend
    refine lt_of_le_of_ne ?_ hend.1
    rw [List.length_append]
    exact Nat.add_le_add (Nat.le_of_lt_succ hlen) (Option.length_toList_le)

/-! ### JOIN (spec/04.2) -/

/-- A KEEP's or a JOIN's caps are those of a rule in range, or all (R45). -/
theorem verdict_inRange {s : State} {x : Identity} {caps : Caps} (hs : ValuesInRange s)
    (h : verdict s x = some caps) :
    caps.classes ≠ 0 ∧ ∀ n, caps.lease = some n → TicksInRange n := by
  obtain ⟨_, _, _, hrules, _⟩ := hs
  unfold verdict at h
  split at h
  case h_1 r hr =>
    obtain ⟨hpresent, hcap, hlease⟩ := hrules r (List.mem_of_find?_eq_some hr)
    unfold FilterRule.caps at h
    split at h
    · cases h
      exact ⟨by decide, nofun⟩
    · cases h
    case h_3 hv =>
      cases h
      obtain ⟨cap, hc⟩ := Option.isSome_iff_exists.1 (hpresent.2 hv)
      exact ⟨by simpa [hc] using hcap cap hc, fun n hn => (hlease n hn).2⟩
  case h_2 =>
    obtain ⟨_, hc⟩ := Option.ite_none_right_eq_some.1 h
    cases hc
    exact ⟨by decide, nofun⟩

/-- A JOIN whose content passes check 2 (R64). -/
def JoinInRange (j : JoinFields) : Prop := j.classSet ≠ 0 ∧ j.lease ≤ 4095 ∧ j.hint ≤ 239

theorem readJoin_inRange {p : List Byte} (h : joinContentOk p = true) :
    JoinInRange (readJoin p) := by
  simp only [joinContentOk, Bool.and_eq_true, beq_iff_eq, bne_iff_ne, decide_eq_true_eq] at h
  obtain ⟨⟨_, hclasses⟩, hhint⟩ := h
  exact ⟨hclasses, min_le_right _ _, hhint⟩

theorem takeContext_kept {c : CtxNum} {j : JoinFields} {caps : Caps} {target : Option Index}
    {probe : Bool} {s : State} (hj : JoinInRange j)
    (hc : ValuesInRange s → caps.classes ≠ 0 ∧ ∀ n, caps.lease = some n → TicksInRange n) :
    Kept s₀ 2 s (takeContext c j caps target probe s) := by
  obtain ⟨hclasses, hlease, hhint⟩ := hj
  have htaken (d : List Deferral) (x : Exchange)
      (hx : x = newExchange j caps target probe
        (.collecting (timerEnd s.phase.params.pageTimeout s))) :
      Kept s₀ 0 s (count .joins { setContext c (some x) s with admission.deferrals := d }) := by
    refine ((setContext_kept fun _ h y hy => ?_).trans (kept_deferrals _ d)).trans (count_kept _ _)
    cases hy
    subst hx
    obtain ⟨hcap, hcapLease⟩ := hc h
    exact ⟨hclasses, hlease, hhint, Nat.zero_le 6, rfl, nofun, nofun, nofun, hcap, hcapLease, nofun,
      nofun⟩
  simp only [takeContext]
  split
  · exact ((htaken _ _ rfl).trans (send_kept _ _ _)).mono
  · exact (htaken _ _ rfl).trans (resolve_kept c _)

theorem needContext_kept {j : JoinFields} {caps : Caps} {target : Option Index} {probe : Bool}
    {s : State} (hj : JoinInRange j)
    (hc : ValuesInRange s → caps.classes ≠ 0 ∧ ∀ n, caps.lease = some n → TicksInRange n) :
    Kept s₀ 2 s (needContext j caps target probe s) := by
  unfold needContext
  split
  · exact (refuse_kept _ _ _ _ s).mono
  · split
    · exact (holdoff_kept _ s).mono
    · exact takeContext_kept hj hc

theorem grantExisting_kept {x : Identity} {i : Index} {n : Word16} {requested : Nat} {s : State}
    (hlive : (entry s i).live = true) (hn : (entry s i).incarnation = some n) :
    Kept s₀ 1 s (grantExisting x i requested s) :=
  ((renewEntry_kept (fun _ hs => (hs.2.1 i).leased_of_incarnation hn) hlive
    fun _ hs => hs.1.clampLease_inRange requested (cap := none) nofun).trans (count_kept _ _)).trans
    (send_kept _ _ _)

theorem joinMeetsEntry_kept {j : JoinFields} {caps : Caps} {s : State} (hj : JoinInRange j)
    (hc : ValuesInRange s → caps.classes ≠ 0 ∧ ∀ n, caps.lease = some n → TicksInRange n) :
    Kept s₀ 2 s (joinMeetsEntry j caps s) := by
  unfold joinMeetsEntry
  split
  · exact needContext_kept hj hc
  case h_2 i _ =>
    simp only []
    split
    case isTrue hlive =>
      split
      · exact (refuse_kept _ _ _ _ s).mono
      split
      case isTrue hn =>
        split
        · exact needContext_kept hj hc
        · exact (grantExisting_kept hlive hn).mono
      case isFalse => exact needContext_kept hj hc
    case isFalse => exact needContext_kept hj hc

theorem admitJoin_kept {j : JoinFields} (hj : JoinInRange j) (s : State) :
    Kept s₀ 2 s (admitJoin j s) := by
  unfold admitJoin
  split
  · exact ((count_kept _ s).trans (send_kept _ _ _)).mono
  · split
    · exact (refuse_kept _ _ _ _ s).mono
    case h_2 caps hv => exact joinMeetsEntry_kept hj fun hs => verdict_inRange hs hv

theorem repeatJoin_kept (x : Exchange) (s : State) : Kept s₀ 0 s (repeatJoin x s) := by
  unfold repeatJoin
  split
  · exact send_kept _ _ s
  · exact Kept.refl s₀ s
  · exact send_kept _ _ s

theorem takeJoin_kept (r : Request) (s : State) : Kept s₀ 3 s (takeJoin r s) := by
  simp only [takeJoin]
  split
  · exact (refuse_kept _ _ _ _ s).mono
  split
  · exact (holdoff_kept _ s).mono
  split
  · exact (refuse_kept _ _ _ _ s).mono
  case isFalse hok =>
    have hj := readJoin_inRange (not_not.1 hok)
    split
    · exact (admitJoin_kept hj s).mono
    · split
      · exact (Kept.refl s₀ s).mono
      · split
        · exact (repeatJoin_kept _ s).mono
        · exact (closeContext_kept _ s).trans (admitJoin_kept hj _)

/-! ### EXTEND and AGREE (spec/04.3, spec/04.5) -/

/-- An exchange into which a page of the next turn is taken stays in range (R72, R73). -/
theorem ExchangeInRange.takePage {x : Exchange} {p : List Byte} {g : Page} {turn d : Nat}
    (h : ExchangeInRange x) (hg : readPage p = some g) (hpages : x.pagesTaken ≠ Config.maxPages)
    (hturn : turn = x.lastTurn + 1) :
    ExchangeInRange
      { x.takePage g with
        pagesTaken := x.pagesTaken + 1, lastTurn := turn, stage := .collecting d } := by
  obtain ⟨hset, hlease, hhint, hle, hlast, hgroups, hwindow, hlabel, hcap, hleaseCap, _, _⟩ := h
  obtain ⟨hgg, hgw, hgl⟩ := readPage_inRange hg
  have hmore : x.pagesTaken + 1 ≤ 6 := Nat.lt_of_le_of_ne hle hpages
  have hnext : turn = x.pagesTaken + 1 := by rw [hturn, hlast]
  cases g with
  | groups l =>
    exact ⟨hset, hlease, hhint, hmore, hnext, fun l' hl => by cases hl; exact hgg l rfl, hwindow,
      hlabel, hcap, hleaseCap, nofun, nofun⟩
  | window w =>
    exact ⟨hset, hlease, hhint, hmore, hnext, hgroups, fun w' hw => by cases hw; exact hgw w rfl,
      hlabel, hcap, hleaseCap, nofun, nofun⟩
  | label l =>
    exact ⟨hset, hlease, hhint, hmore, hnext, hgroups, hwindow,
      fun l' hl => by cases hl; exact hgl l rfl, hcap, hleaseCap, nofun, nofun⟩

theorem newPage_kept {c : CtxNum} {x : Exchange} {turn : Nat} {more : Bool} {p : List Byte}
    {s : State} (hx : context s c = some x) (hturn : turn = x.lastTurn + 1) :
    Kept s₀ 2 s (newPage c x turn more (readPage p) s) := by
  unfold newPage
  split
  · exact (closeRefused_kept _ _ _ s).mono
  case h_2 g hg =>
    split
    · exact (closeRefused_kept _ _ _ s).mono
    case isFalse hpages =>
      have hset {d : Nat} : Kept s₀ 0 s (setContext c (some
          { x.takePage g with
            pagesTaken := x.pagesTaken + 1, lastTurn := turn, stage := .collecting d }) s) := by
        refine setContext_kept fun _ h y hy => ?_
        cases hy
        exact (h.2.2.1 c x hx).takePage hg hpages hturn
      simp only []
      split
      · exact (hset.trans (send_kept _ _ _)).mono
      · exact (hset.trans (send_kept _ _ _)).trans (resolve_kept c _)

theorem extendContext_kept {c : CtxNum} {x : Exchange} {p : List Byte} {s : State}
    (hx : context s c = some x) : Kept s₀ 2 s (extendContext c x p s) := by
  simp only [extendContext]
  split
  · split
    case isTrue hturn => exact newPage_kept hx hturn
    case isFalse =>
      split
      · exact (send_kept _ _ s).mono
      · exact (closeRefused_kept _ _ _ s).mono
  · split
    · exact (Kept.refl s₀ s).mono
    · exact (closeRefused_kept _ _ _ s).mono
  · split
    · exact (send_kept _ _ s).mono
    · exact (closeRefused_kept _ _ _ s).mono

theorem takeExtend_kept (r : Request) (s : State) : Kept s₀ 2 s (takeExtend r s) := by
  simp only [takeExtend]
  split
  · exact (refuse_kept _ _ _ _ s).mono
  split
  · exact (refuse_kept _ _ _ _ s).mono
  split
  · exact (refuse_kept _ _ _ _ s).mono
  · split
    · exact (Kept.refl s₀ s).mono
    case h_2 x hx => exact extendContext_kept hx

theorem bindOffer_kept {c : CtxNum} {x : Exchange} {o : Offer} {s : State}
    (hx : context s c = some x) (ho : x.stage = .offered o) : Kept s₀ 1 s (bindOffer c x o s) := by
  unfold bindOffer
  split
  case isTrue hr =>
    refine (((changeEntry_kept _ (fun _ hs => ?_) fun _ hs => ?_).trans
      (setContext_none_kept c _)).trans (count_kept _ _)).trans (send_kept _ _ _)
    · exact hs.fits ((hs.2.1 o.entry).bound hr o.lease) (fun _ => id) fun _ => id
    · obtain ⟨hterms, hlabel, _, _⟩ := hs.2.1 o.entry
      obtain ⟨_, _, _, _, _, _, _, _, _, _, _, hoffer⟩ := hs.2.2.1 c x hx
      obtain ⟨_, _, hlease, _⟩ := hoffer o ho
      exact ⟨hterms, hlabel, fun n hn => by cases hn; exact hlease,
        fun n hn => by cases hn; exact hlease⟩
  case isFalse => exact ((setContext_none_kept c s).trans (refuse_kept _ _ _ _ _)).mono

theorem judgeAgree_kept {c : CtxNum} {x : Exchange} {o : Offer} {p : List Byte} {s : State}
    (hx : context s c = some x) (ho : x.stage = .offered o) :
    Kept s₀ 1 s (judgeAgree c x o p s) := by
  unfold judgeAgree
  split
  · exact (closeContext_kept c s).trans (send_kept _ _ _)
  split
  · exact closeRefused_kept _ _ _ s
  split
  · exact closeRefused_kept _ _ _ s
  · exact bindOffer_kept hx ho

theorem lateAgree_kept (x : Identity) (p : List Byte) (s : State) :
    Kept s₀ 0 s (lateAgree x p s) := by
  unfold lateAgree
  split
  · exact refuse_kept _ _ _ _ s
  · simp only []
    split
    · exact send_kept _ _ s
    · exact refuse_kept _ _ _ _ s

theorem takeAgree_kept (r : Request) (s : State) : Kept s₀ 1 s (takeAgree r s) := by
  simp only [takeAgree]
  split
  · exact (refuse_kept _ _ _ _ s).mono
  split
  · exact (refuse_kept _ _ _ _ s).mono
  split
  · exact (lateAgree_kept _ _ s).mono
  · split
    · exact (Kept.refl s₀ s).mono
    case h_2 x hx =>
      split
      case h_1 o ho => exact judgeAgree_kept hx ho
      · exact closeRefused_kept _ _ _ s
      · exact closeRefused_kept _ _ _ s

/-! ### The holder that lost an entry (R103): the model's own field -/

/-- What is remembered of a superseded holder is no tracked field. -/
theorem rememberHolder_kept {i : Index} {r : Option Superseded} {s : State}
    (hl : TableSound s₀ → TableSound s → (entry s i).leased = true) :
    Kept s₀ 0 s (rememberHolder i r s) := by
  have hentry (j : Index) : entry (rememberHolder i r s) j =
      if j = i then { entry s i with superseded := r } else entry s j :=
    entry_withEntry i j _ s
  refine kept_table s _ (advanced_of_tracked (fun j => ?_) fun j => ?_)
    (fun h₀ hs => hs.withEntry (hs.fits ((hs.2.1 i).remembering (hl h₀ hs) r) (fun _ => id)
      fun _ => id)) fun _ hs => hs.withEntry (hs.2.1 i)
  · change (entry (rememberHolder i r s) j).generation = _
    rw [hentry]
    split
    case isTrue hj => rw [hj]
    case isFalse => rfl
  · change (entry (rememberHolder i r s) j).tracked = _
    rw [hentry]
    split
    case isTrue hj => rw [hj]; rfl
    case isFalse => rfl

theorem forgetting_cases (x : Identity) (holder : Word16) (e : Entry) :
    e.forgetting x holder = e ∨ e.forgetting x holder = { e with superseded := none } := by
  unfold Entry.forgetting
  split
  · exact .inr rfl
  · exact .inl rfl

theorem forgetLoss_kept (k : KeepFields) (s : State) : Kept s₀ 0 s (forgetLoss k s) := by
  have hcases (i : Index) := forgetting_cases k.identity k.incarnation (entry s i)
  have haddr (i : Index) : (entry (forgetLoss k s) i).address = (entry s i).address := by
    rw [entry_forgetLoss]
    obtain h | h := hcases i <;> rw [h]
  have hid (i : Index) : (entry (forgetLoss k s) i).identity = (entry s i).identity := by
    rw [entry_forgetLoss]
    obtain h | h := hcases i <;> rw [h]
  refine kept_table s _ (advanced_of_tracked (fun i => ?_) fun i => ?_)
    (fun _ ⟨hp, he, ha, hx⟩ => ⟨hp, fun i => ?_, fun i j a hi hj => ?_, fun i j x hi hj => ?_⟩)
    fun _ hs i => ?_
  · change (entry (forgetLoss k s) i).generation = _
    rw [entry_forgetLoss]
    obtain h | h := hcases i <;> rw [h]
  · change (entry (forgetLoss k s) i).tracked = _
    rw [entry_forgetLoss]
    obtain h | h := hcases i <;> rw [h]
    rfl
  · change EntrySound (entry (forgetLoss k s) i)
    rw [entry_forgetLoss]
    exact (he i).forgetting _ _
  · exact ha i j a ((haddr i).symm.trans hi) ((haddr j).symm.trans hj)
  · exact hx i j x ((hid i).symm.trans hi) ((hid j).symm.trans hj)
  · change EntryInRange (entry (forgetLoss k s) i)
    rw [entry_forgetLoss]
    obtain h | h := hcases i <;> rw [h] <;> exact hs.2.1 i

/-! ### REPLY (spec/05.2) -/

theorem noteLateReply_kept (i : Index) (p : List Byte) (s : State) :
    Kept s₀ 0 s (noteLateReply i p s) := by
  obtain ⟨hs, _⟩ | ⟨late, ⟨_, hlost⟩, hs⟩ := noteLateReply_cases i p s <;> rw [hs]
  · exact Kept.refl s₀ s
  · exact rememberHolder_kept fun _ ht => (ht.2.1 i).leased_of_superseded (by simp [hlost])

theorem judgeReply_kept (i : Index) (c : CtxNum) (x : Exchange) (p : List Byte) (s : State) :
    Kept s₀ 2 s (judgeReply i c x p s) := by
  unfold judgeReply
  split
  · exact ((addCollision_kept i s).trans (closeContext_kept c _)).trans (holdoff_kept _ _)
  split
  · exact probeDuplicate_kept i c s
  split
  · exact resolveTerms_kept c s
  · exact probeDuplicate_kept i c s

theorem takeReply_kept (r : Request) (s : State) : Kept s₀ 2 s (takeReply r s) := by
  unfold takeReply
  split
  · exact (count_kept _ s).mono
  · split
    · exact ((noteLateReply_kept _ _ s).trans (count_kept _ _)).mono
    · split
      · exact (Kept.refl s₀ s).mono
      · exact judgeReply_kept _ _ _ _ s

/-! ### KEEP and LEAVE (spec/02.4, spec/02.5, spec/08.2) -/

/-- A KEEP whose content passes the port's test (R122). -/
def KeepInRange (k : KeepFields) : Prop :=
  (1 ≤ k.window ∧ k.window ≤ 64) ∧ GroupsInRange k.groups

theorem readKeep_inRange {p : List Byte} (h : contentOk .keep p = true) :
    KeepInRange (readKeep p) := by
  simp only [contentOk, keepContentOk, Bool.and_eq_true, decide_eq_true_eq, beq_iff_eq] at h
  obtain ⟨⟨⟨⟨⟨hn, hlen⟩, _⟩, hw⟩, _⟩, hg⟩ := h
  refine ⟨hw, groupsInRange_of_valid ?_ hg⟩
  change ((p.drop 15).map BitVec.toNat).length ≤ 4
  rw [List.length_map, List.length_drop]
  omega

theorem adoptInto_kept {i : Index} {k : KeepFields} {source lease : Nat} {s : State}
    (ht : TableSound s₀ → TableSound s → EntryFits i (adoptedEntry k source lease) s)
    (hv : ValuesInRange s₀ → ValuesInRange s → KeepInRange k ∧ TicksInRange lease) :
    Kept s₀ 1 s (adoptInto i k source lease s) := by
  refine ((changeEntry_kept _ ht fun h₀ hs => ?_).trans (count_kept _ _)).trans (send_kept _ _ _)
  obtain ⟨⟨hw, hg⟩, hlease⟩ := hv h₀ hs
  exact ⟨fun t ht => by cases ht; exact ⟨hw.1, hw.2, hg⟩, nofun,
    fun n hn => by cases hn; exact hlease, fun n hn => by cases hn; exact hlease⟩

theorem adopt_kept {k : KeepFields} {source : Nat} {s : State} (ha : AddressUnheld s source)
    (hk : ValuesInRange s₀ → KeepInRange k) : Kept s₀ 2 s (adopt k source s) := by
  unfold adopt
  split
  · exact (refuse_kept _ _ _ _ s).mono
  case isFalse htests =>
    split
    · exact (refuse_kept _ _ _ _ s).mono
    case h_2 caps hcaps =>
      split
      · exact (refuse_kept _ _ _ _ s).mono
      · split
        · exact ((setPart_kept _ s).trans (refuse_kept _ _ _ _ _)).mono
        case h_2 i t hal =>
          simp only [not_or, not_not, Option.not_isSome_iff_eq_none, entryOf_none] at htests
          obtain ⟨⟨h1, h2⟩, _, hx⟩ := htests
          obtain ⟨hphase, _⟩ := allocate_frame hal
          have hadm : t.admission = s.admission := by
            obtain ⟨_, rfl⟩ | ⟨_, _, rfl⟩ := allocate_cases hal <;> rfl
          refine (allocate_kept hal).trans (adoptInto_kept (fun _ ht => ?_) fun h₀ hs => ⟨hk h₀, ?_⟩)
          · refine ht.fits_new (entrySound_adopted k h1 h2 _) (fun a hh => ?_) fun x hh => ?_
            · cases hh
              exact ha.allocate hal
            · cases hh
              exact hx.allocate hal
          · have hverdict : verdict t k.identity = some caps := by
              rw [verdict, hadm, hphase]
              exact (Option.filter_eq_some_iff.1 hcaps).1
            exact hphase ▸ hs.1.clampLease_inRange _ (verdict_inRange hs hverdict).2

theorem keepRejoins_kept (i : Index) (k : KeepFields) (late : Bool) (source : Nat) (s : State) :
    Kept s₀ 2 s (keepRejoins i k late source s) := by
  unfold keepRejoins
  split
  · exact (refuse_kept _ _ _ _ s).mono
  · simp only []
    split
    · exact (refuse_kept _ _ _ _ s).trans (resolveTerms_kept _ _)
    · exact (refuse_kept _ _ _ _ s).mono

theorem keepDuplicates_kept {i : Index} {c : CtxNum} {k : KeepFields} {source : Nat} {s : State}
    (hlive : (entry s i).live = true) (hl : (entry s i).leased = true) :
    Kept s₀ 2 s (keepDuplicates i c k source s) := by
  refine (((changeEntry_kept _ (fun _ hs => ?_) fun _ hs => ?_).trans (count_kept _ _)).trans
    (send_kept _ _ _)).trans (closeDuplicate_kept _ _)
  · exact hs.fits (((hs.2.1 i).renewed hl hlive _).disputed rfl _) (fun _ => id) fun _ => id
  · exact (hs.2.1 i).renewed (hs.1.clampLease_inRange k.lease (cap := none) nofun)

theorem keepLive_kept {i : Index} {k : KeepFields} {late : Bool} {source : Nat} {s : State}
    (hlive : (entry s i).live = true) : Kept s₀ 2 s (keepLive i k late source s) := by
  simp only [keepLive]
  split
  · exact ((addCollision_kept i s).trans (refuse_kept _ _ _ _ _)).mono
  split
  · exact ((count_kept _ s).trans (send_kept _ _ _)).mono
  case isFalse hl =>
    have hl : (entry s i).leased = true := by simpa using hl
    split
    · exact keepRejoins_kept _ _ _ _ s
    split
    · exact (((renewEntry_kept (fun _ _ => hl) hlive fun _ hs =>
        hs.1.clampLease_inRange k.lease (cap := none) nofun).trans (count_kept _ _)).trans
        (send_kept _ _ _)).mono
    · exact keepDuplicates_kept hlive hl

theorem live_forgetting {x : Identity} {holder : Word16} {e : Entry} :
    (e.forgetting x holder).live = e.live := by
  obtain h | h := forgetting_cases x holder e <;> rw [h]
  rfl

theorem AddressUnheld.forgetLoss {k : KeepFields} {s : State} {a : Nat} (h : AddressUnheld s a) :
    AddressUnheld (forgetLoss k s) a := by
  intro i ho ha
  rw [entry_forgetLoss] at ho ha
  obtain he | he := forgetting_cases k.identity k.incarnation (entry s i) <;> rw [he] at ho ha
  · exact h i ho ha
  · exact h i ho ha

theorem takeKeep_kept {r : Request} {s : State}
    (hr : ValuesInRange s₀ → contentOk .keep r.payload = true) : Kept s₀ 2 s (takeKeep r s) := by
  have hforget := forgetLoss_kept (s₀ := s₀) (readKeep r.payload) s
  simp only [takeKeep]
  split
  case h_1 hnone =>
    split
    · exact hforget.trans (adopt_kept (entryAt_none.1 hnone).forgetLoss
        fun h₀ => readKeep_inRange (hr h₀))
    · exact (hforget.trans (refuse_kept _ _ _ _ _)).mono
  case h_2 i _ =>
    have hlive (h : (entry s i).live = true) :
        (entry (forgetLoss (readKeep r.payload) s) i).live = true := by
      rw [entry_forgetLoss, live_forgetting, h]
    split
    case h_1 hs => exact hforget.trans (keepLive_kept (hlive (by simp [Entry.live, hs])))
    case h_2 hs => exact hforget.trans (keepLive_kept (hlive (by simp [Entry.live, hs])))
    · split
      · exact (hforget.trans (refuse_kept _ _ _ _ _)).mono
      · exact (hforget.trans (refuse_kept _ _ _ _ _)).mono
    · exact (hforget.trans (refuse_kept _ _ _ _ _)).mono
    · exact hforget.mono

theorem takeLeave_kept (r : Request) (s : State) : Kept s₀ 3 s (takeLeave r s) := by
  simp only [takeLeave]
  split
  · exact (refuse_kept _ _ _ _ s).mono
  case h_2 i hi =>
    split
    case isTrue hlive =>
      obtain ⟨_, hm⟩ := Option.filter_eq_some_iff.1 hi
      simp only [leaveMatches, Bool.and_eq_true] at hm
      exact ((holdEntry_kept _ hm.1.1 hlive).trans (send_kept _ _ _)).trans (probeGone_kept i _)
    case isFalse =>
      split
      · exact (send_kept _ _ s).mono
      · exact (refuse_kept _ _ _ _ s).mono

end Sys2Proof.Machine
end

section
/-! What receiving a message, the lease clock, the timers and the transmitter keep (spec/02, spec/04,
spec/05.1, spec/07). -/

namespace Sys2Proof.Machine

-- One lemma is elaborated after another, which keeps the check's memory low.
set_option Elab.async false

variable {s₀ : State}

/-! ### The observer's report (spec/05.1) -/

theorem learn_kept {a : Nat} {s : State} (h1 : 1 ≤ a) (h2 : a ≤ 239)
    (ha : TableSound s₀ → TableSound s → AddressUnheld s a) : Kept s₀ 1 s (learn a s) := by
  unfold learn
  split
  · exact (setPart_kept _ s).mono
  · refine changeEntry_kept _ (fun h₀ hs => hs.fits_new (entrySound_legacy h1 h2 _)
      (fun b hb => ?_) nofun) fun _ hs => ⟨nofun, nofun, nofun, fun n hn => ?_⟩
    · cases hb
      exact ha h₀ hs
    · cases hn
      exact hs.1.legacySilence_inRange

theorem learnIfOn_kept {a : Nat} {s : State} (h1 : 1 ≤ a) (h2 : a ≤ 239)
    (ha : TableSound s₀ → TableSound s → AddressUnheld s a) : Kept s₀ 1 s (learnIfOn a s) := by
  unfold learnIfOn
  split
  · exact learn_kept h1 h2 ha
  · exact (Kept.refl s₀ s).mono

theorem reportLive_kept {i : Index} {s : State} : Kept s₀ 1 s (reportLive i s) := by
  simp only [reportLive]
  split
  case h_1 ho =>
    refine changeEntry_kept _
      (fun _ hs => hs.fits ((hs.2.1 i).refreshed ho _) (fun _ => id) fun _ => id) fun _ hs => ?_
    obtain ⟨hterms, hlabel, hlease, _⟩ := hs.2.1 i
    exact ⟨hterms, hlabel, hlease, fun n hn => by cases hn; exact hs.1.legacySilence_inRange⟩
  · split
    · exact addCollision_kept i s
    · exact (Kept.refl s₀ s).mono
  · exact addCollision_kept i s
  · exact addCollision_kept i s
  · exact (Kept.refl s₀ s).mono

/-- Where the entry that held an address is freed, no entry holds it (R14). -/
theorem TableSound.unheld_of_freed {s t : State} {i : Index} {a : Nat} (hs : TableSound s)
    (ha : (entry s i).address = some a) (ht : t.table = (freeEntry i s).table) :
    AddressUnheld t a := by
  intro j ho hj
  rw [show entry t j = entry (freeEntry i s) j by rw [entry, ht]; rfl] at ho hj
  obtain ⟨hne, he⟩ := freeEntry_occupied ho
  exact hne (hs.2.2.1 j i a (he ▸ hj) ha)

theorem withdraw_of_reserved {i : Index} {s : State} (h : (entry s i).state = .reserved) :
    withdraw i s = freeEntry i s := if_pos h

/-- The offering context of a RESERVED entry has made its offer of that entry (R61). -/
theorem offeringOf_some {s : State} {i : Index} {c : CtxNum} (h : offeringOf s i = some c) :
    ∃ x o, context s c = some x ∧ x.stage = .offered o ∧ o.entry = i := by
  have hc := List.find?_some h
  cases hx : context s c with
  | none => simp [hx] at hc
  | some x =>
    cases hs : x.stage with
    | collecting d => simp [hx, hs, Stage.offer?] at hc
    | checking n t => simp [hx, hs, Stage.offer?] at hc
    | offered o => exact ⟨x, o, rfl, hs, by simpa [hx, hs, Stage.offer?] using hc⟩

/-- Closing the context of an offer frees the entry reserved for it (R63). -/
theorem closeContext_offered_table {s : State} {c : CtxNum} {x : Exchange} {o : Offer}
    (hx : context s c = some x) (ho : x.stage = .offered o)
    (hr : (entry s o.entry).state = .reserved) :
    (closeContext c s).table = (freeEntry o.entry s).table := by
  simp only [closeContext, hx, ho, withdraw_of_reserved hr]
  rfl

theorem closeUnasked_table {s : State} {c : CtxNum} {x : Exchange} (r : Reason)
    (hx : context s c = some x) : (closeUnasked c r s).table = (closeContext c s).table := by
  have hx' : context { s with freeUsed := s.freeUsed + 1 } c = some x := hx
  simp only [closeUnasked, closeRefused, hx', refuse_table]
  unfold closeContext
  simp only [hx, hx']
  split
  · simp only [withdraw]
    rw [show entry { s with freeUsed := s.freeUsed + 1 } = entry s from rfl]
    split <;> rfl
  · rfl
  · rfl

theorem reportReserved_kept {i : Index} {a : Nat} {s : State} (h1 : 1 ≤ a) (h2 : a ≤ 239)
    (ha : (entry s i).address = some a) (hr : (entry s i).state = .reserved) :
    Kept s 2 s (reportReserved i a s) := by
  unfold reportReserved
  split
  case h_1 c hc =>
    obtain ⟨x, o, hx, ho, rfl⟩ := offeringOf_some hc
    exact (closeUnasked_kept c .retry s).trans (learnIfOn_kept h1 h2 fun hs _ =>
      hs.unheld_of_freed ha
        ((closeUnasked_table _ hx).trans (closeContext_offered_table hx ho hr)))
  case h_2 =>
    exact (withdraw_kept i s).trans (learnIfOn_kept h1 h2 fun hs _ =>
      hs.unheld_of_freed ha (by rw [withdraw_of_reserved hr]))

theorem reportHeld_kept {i : Index} {a : Nat} {s : State} (h1 : 1 ≤ a) (h2 : a ≤ 239)
    (ha : (entry s i).address = some a) : Kept s 2 s (reportHeld i a s) := by
  unfold reportHeld
  split
  · exact (freeEntry_kept i s).trans (learn_kept h1 h2 fun hs _ => hs.unheld_of_freed ha rfl)
  · exact (Kept.refl s s).mono

theorem reportClear_kept {a : Nat} {s : State} (h1 : 1 ≤ a) (h2 : a ≤ 239) :
    Kept s 2 s (reportClear a s) := by
  unfold reportClear
  split
  case h_1 hnone => exact (learnIfOn_kept h1 h2 fun _ _ => entryAt_none.1 hnone).mono
  case h_2 i hi =>
    obtain ⟨_, ha⟩ := entryAt_some hi
    split
    · exact (Kept.refl s s).mono
    case h_2 hr => exact reportReserved_kept h1 h2 ha hr
    · exact reportLive_kept.mono
    · exact reportLive_kept.mono
    · exact reportHeld_kept h1 h2 ha

theorem reportSet_kept (a : Nat) (s : State) : Kept s₀ 0 s (reportSet a s) := by
  unfold reportSet
  split
  · exact Kept.refl s₀ s
  · split
    · exact count_kept _ s
    · split
      · exact count_kept _ s
      · exact Kept.refl s₀ s

theorem observe_kept (source : Nat) (bound : Bool) (s : State) :
    Kept s 2 s (observe source bound s) := by
  unfold observe
  split
  case isTrue h =>
    split
    · exact (reportSet_kept _ s).mono
    · exact reportClear_kept h.1 h.2
  case isFalse => exact (Kept.refl s s).mono

/-! ### Receiving (spec/07.1, spec/07.2) -/

theorem takeRequest_kept (r : Request) (s : State) : Kept s₀ 0 s (takeRequest r s) := by
  unfold takeRequest
  split
  case isTrue hok =>
    unfold offerRequest
    split
    · refine kept_inbound s _ fun h q hq => ?_
      obtain hq | hq := List.mem_append.1 hq
      · exact h q hq
      · rw [List.mem_singleton.1 hq]
        exact hok
    · exact (count_kept _ s).then_setPart
  case isFalse => exact refuse_kept _ _ _ _ s

theorem classify_kept (m : Heard) (s : State) : Kept s₀ 0 s (classify m s) := by
  unfold classify
  split
  · exact count_kept _ s
  · split
    · exact count_kept _ s
    · split
      · exact takeRequest_kept _ s
      · exact Kept.refl s₀ s

/-- A change judged from where it begins, after others. -/
theorem Kept.trans_from {s t u : State} {n m : Nat} (h : Kept s₀ n s t) (h' : Kept t m t u)
    (hq : QueueSound t → QueueSound u) : Kept s₀ (n + m) s u :=
  ⟨h'.pending.trans h.pending, h.now.trans h'.now, h.freeUsed.trans h'.freeUsed,
    h'.clock ∘ h.clock, h'.lookup ∘ h.lookup, fun h₀ hs => hq (h.queue h₀ hs),
    h.generations.trans h'.generations, fun h₀ hs => h'.table (h.table h₀ hs) (h.table h₀ hs),
    fun h₀ hs => h'.values (h.values h₀ hs) (h.values h₀ hs)⟩

theorem takeValid_kept (m : Heard) (s : State) : Kept s₀ 2 s (takeValid m s) := by
  have hfresh : Kept s₀ 0 s (refreshAlive s) := kept_line s rfl rfl rfl
  simp only [takeValid]
  split
  · exact hfresh.mono
  · have hreport := observe_kept m.source m.bound (refreshAlive s)
    exact (hfresh.trans_from hreport fun h => hreport.queue h h).trans (classify_kept m _)

theorem carrierFalls_kept (s : State) : Kept s₀ 0 s (carrierFalls s) := by
  simp only [carrierFalls]
  split <;> exact kept_line s rfl rfl rfl

theorem receiveMessage_kept {bytes : List Byte} {extra : Nat} {s t : State}
    (h : execReceiveMessage bytes extra s = .next t) : Kept s₀ 2 s t := by
  have hfalls := carrierFalls_kept (s₀ := s₀) s
  unfold execReceiveMessage at h
  cases h
  split
  · split
    · exact hfalls.mono
    · exact (hfalls.trans (count_kept _ _)).mono
  · split
    · exact hfalls.trans (takeValid_kept _ _)
    · split
      · exact hfalls.mono
      · exact hfalls.trans (takeValid_kept _ _)

/-! ### The lease clock (spec/02.1, spec/02.2) -/

theorem advanceTo_kept (t : Nat) (s : State) : Kept s₀ 0 s (advanceTo t s) :=
  kept_now s (le_max_left _ _)

/-- Count-downs taken at a tick leave remaining at least 1 (R26). -/
theorem EntryInRange.ticked {e : Entry} (h : EntryInRange e) (owed : Nat) :
    EntryInRange (tickedEntry e owed) := by
  obtain ⟨hterms, hlabel, hlease, hremaining⟩ := id h
  unfold tickedEntry
  split
  · refine ⟨hterms, hlabel, hlease, fun n hn => ?_⟩
    obtain ⟨m, hm, rfl⟩ := Option.map_eq_some_iff.1 hn
    obtain ⟨hpos, hle⟩ := hremaining m hm
    simp only [TicksInRange, countDowns, orZero, hm, Option.getD_some]
    omega
  · exact h

theorem tickedEntry_cases (e : Entry) (owed : Nat) :
    ∃ n, tickedEntry e owed = e.countedDown n := by
  unfold tickedEntry
  split
  · exact ⟨_, rfl⟩
  · exact ⟨0, by simp [Entry.countedDown]⟩

theorem entry_ticked (s : State) (i : Index) :
    (Vector.ofFn (fun i : Index => tickedEntry s.table.entries[i] s.lease.owed[i]))[i] =
      tickedEntry (entry s i) s.lease.owed[i] := by
  simp [entry]

theorem tickSettle_kept (s : State) : Kept s₀ 0 s (tickSettle s) := by
  unfold tickSettle
  split
  case isTrue hphase =>
    split
    · exact Kept.refl s₀ s
    case h_2 n hn =>
      split
      case isTrue hlt =>
        refine kept_phase s rfl fun ⟨hclock, htimer, hticks, howed, hsettle⟩ => ?_
        refine ⟨hclock, ⟨fun _ => hphase, fun _ => rfl⟩, fun m hm => ?_, howed, hsettle⟩
        cases hm
        have := hticks n hn
        omega
      case isFalse =>
        exact kept_phase s rfl fun ⟨hclock, htimer, hticks, _, hsettle⟩ =>
          ⟨hclock, htimer, hticks, fun _ => hphase, hsettle⟩
  case isFalse => exact Kept.refl s₀ s

theorem leaseTick_kept {s t : State} (h : execLeaseTick s = .next t) : Kept s₀ 0 s t := by
  unfold execLeaseTick at h
  cases h
  split
  · exact Kept.refl s₀ s
  case h_2 next hnext =>
    refine Kept.trans (n := 0) ?_ (tickSettle_kept _)
    have hcount (i : Index) := tickedEntry_cases (entry s i) s.lease.owed[i]
    have htable : Kept s₀ 0 (advanceTo next s) { advanceTo next s with
        table.entries :=
          Vector.ofFn (fun i => tickedEntry s.table.entries[i] s.lease.owed[i]) } := by
      refine kept_table (advanceTo next s) _ (advanced_of_tracked (fun i => ?_) fun i => ?_)
        (fun _ ⟨hp, he, ha, hx⟩ => ⟨hp, fun i => ?_, fun i j a hi hj => ?_, fun i j x hi hj => ?_⟩)
        fun _ hs i => ?_
      · obtain ⟨n, hn⟩ := hcount i
        rw [entry, entry_ticked, hn]
        rfl
      · obtain ⟨n, hn⟩ := hcount i
        rw [entry, entry_ticked, hn]
        rfl
      · obtain ⟨n, hn⟩ := hcount i
        rw [entry, entry_ticked, hn]
        exact (he i).countedDown n
      · obtain ⟨n, hn⟩ := hcount i
        obtain ⟨m, hm⟩ := hcount j
        rw [entry, entry_ticked, hn] at hi
        rw [entry, entry_ticked, hm] at hj
        exact ha i j a hi hj
      · obtain ⟨n, hn⟩ := hcount i
        obtain ⟨m, hm⟩ := hcount j
        rw [entry, entry_ticked, hn] at hi
        rw [entry, entry_ticked, hm] at hj
        exact hx i j x hi hj
      · rw [entry_ticked]
        exact (hs.2.1 i).ticked _
    refine Kept.trans (n := 0) (m := 0) ((advanceTo_kept next s).trans htable) ?_
    refine kept_phase _ rfl fun ⟨hclock, hrest⟩ => ⟨⟨nofun, fun ho => ?_⟩, hrest⟩
    exact absurd (hnext.symm.trans (hclock.2 ho)) nofun

theorem takeOwed_kept (i : Index) (s : State) : Kept s₀ 0 s (takeOwed i s) := kept_owed s _

theorem lowerRemaining_kept {i : Index} {s : State} (h : 1 < orZero (entry s i).remaining) :
    Kept s₀ 0 s (lowerRemaining i s) := by
  have hentry (j : Index) : entry (lowerRemaining i s) j =
      if j = i then (entry s i).countedDown 1 else entry s j :=
    entry_withEntry i j _ s
  refine kept_table s _ (advanced_of_tracked (fun j => ?_) fun j => ?_)
    (fun _ hs => hs.withEntry (hs.fits ((hs.2.1 i).countedDown 1) (fun _ => id) fun _ => id))
    fun _ hs => hs.withEntry ?_
  · change (entry (lowerRemaining i s) j).generation = _
    rw [hentry]
    split
    case isTrue hj => rw [hj]; rfl
    case isFalse => rfl
  · change (entry (lowerRemaining i s) j).tracked = _
    rw [hentry]
    split
    case isTrue hj => rw [hj]; rfl
    case isFalse => rfl
  · obtain ⟨hterms, hlabel, hlease, hremaining⟩ := hs.2.1 i
    refine ⟨hterms, hlabel, hlease, fun n hn => ?_⟩
    obtain ⟨m, hm, rfl⟩ := Option.map_eq_some_iff.1 hn
    obtain ⟨_, hle⟩ := hremaining m hm
    rw [hm] at h
    simp only [orZero, Option.getD_some] at h
    exact ⟨Nat.le_sub_one_of_lt h, (Nat.sub_le m 1).trans hle⟩

theorem expiryEvent_kept {n : Nat} {own : Entry → Bool} {expire : Index → State → State} {i : Index}
    {s : State}
    (h : ∀ u, own (entry u i) = true → Kept s₀ n u (expire i u)) :
    Kept s₀ n s (expiryEvent own expire i s) := by
  obtain hs | ⟨_, _, hs⟩ | ⟨_, _, hlt, hs⟩ | ⟨_, _, _, hown, hs⟩ := expiryEvent_cases own expire i s <;>
    rw [hs]
  · exact (Kept.refl s₀ s).mono
  · exact (takeOwed_kept i s).mono
  · exact ((takeOwed_kept i s).trans (lowerRemaining_kept hlt)).mono
  · exact ((takeOwed_kept i s).trans (h _ hown)).mono

theorem expireBound_kept {i : Index} {s : State}
    (h : ((entry s i).leased && (entry s i).state == .bound) = true) :
    Kept s₀ 3 s (expireBound i s) := by
  simp only [Bool.and_eq_true, beq_iff_eq] at h
  obtain ⟨hl, hstate⟩ := h
  have hlive : (entry s i).live = true := by simp [Entry.live, hstate]
  have hcount := count_kept (s₀ := s₀) .lapses s
  have hentry : entry (count .lapses s) i = entry s i := by simp [entry]
  simp only [expireBound]
  split
  · exact (hcount.trans (holdEntry_kept _ (hentry ▸ hl) (hentry ▸ hlive))).trans
      (probeGone_kept i _)
  case isFalse hgrace =>
    refine (hcount.trans (changeEntry_kept _ (fun _ hs => ?_) fun _ hs => ?_)).mono
    · rw [← hentry] at hl hlive ⊢
      exact hs.fits ((hs.2.1 i).lapsed hl hlive _) (fun _ => id) fun _ => id
    · rw [← hentry]
      obtain ⟨hterms, hlabel, hlease, _⟩ := hs.2.1 i
      refine ⟨hterms, hlabel, hlease, fun n hn => ?_⟩
      cases hn
      have hp : s.phase.params.grace ≤ 255 := (count_phase .lapses s ▸ hs.1).grace_le
      exact ⟨Nat.pos_of_ne_zero hgrace, by omega⟩

theorem lapsingExpiry_kept {i : Index} {s : State}
    (h : ((entry s i).leased && (entry s i).state == .lapsing) = true) :
    Kept s₀ 3 s (probeGone i (holdEntry .expired i s)) := by
  simp only [Bool.and_eq_true, beq_iff_eq] at h
  exact (holdEntry_kept _ h.1 (by simp [Entry.live, h.2])).trans (probeGone_kept i _)

theorem settleExpiry_kept {s t : State} (h : execSettleExpiry s = .next t) : Kept s₀ 0 s t := by
  unfold execSettleExpiry at h
  cases h
  split
  case isTrue hs =>
    refine Kept.then_setPart
      (kept_phase (p := { s.phase with phase := .active, settle := none, settleOwed := false })
        (l := s.lease) s rfl fun ⟨hclock, _, _, _, hsettle⟩ => ?_)
    exact ⟨by simpa [hs.1] using hclock, by simp, nofun, nofun, hsettle⟩
  case isFalse => exact Kept.refl s₀ s

/-! ### The timers of contexts and of the segment (spec/04.1, spec/05.2, spec/07.6) -/

theorem pageExpires_kept (c : CtxNum) (s : State) : Kept s₀ 1 s (pageExpires c s) := by
  unfold pageExpires
  split
  · exact (Kept.refl s₀ s).mono
  · split
    · exact (advanceTo_kept _ s).trans (closeUnasked_kept c _ _)
    · exact (Kept.refl s₀ s).mono
    · exact (Kept.refl s₀ s).mono

theorem agreeExpires_kept (c : CtxNum) (s : State) : Kept s₀ 1 s (agreeExpires c s) := by
  unfold agreeExpires
  split
  · exact (Kept.refl s₀ s).mono
  · split
    · exact (advanceTo_kept _ s).trans (closeUnasked_kept c _ _)
    · exact (Kept.refl s₀ s).mono
    · exact (Kept.refl s₀ s).mono

theorem goneUnanswered_kept (c : CtxNum) (x : Exchange) (s : State) :
    Kept s₀ 2 s (goneUnanswered c x s) := by
  unfold goneUnanswered
  split
  · exact resolveTerms_kept c s
  case h_2 i _ =>
    have hresolved := resolveTerms_kept (s₀ := s₀) c s
    obtain hs | ⟨_, _, _, hr, hs⟩ := noteSuperseded_cases i s (resolveTerms c s) <;> rw [hs]
    · exact hresolved
    · exact hresolved.trans (rememberHolder_kept fun _ ht => (ht.2.1 i).leased_of_reserved hr)

theorem probeExpires_kept (c : CtxNum) (s : State) : Kept s₀ 2 s (probeExpires c s) := by
  unfold probeExpires
  split
  · exact (Kept.refl s₀ s).mono
  case h_2 x hx =>
    split
    case h_1 tries d hd =>
      have hadv := advanceTo_kept (s₀ := s₀) d s
      simp only []
      split
      case h_1 a _ =>
        split
        case isTrue hlt =>
          refine (hadv.trans (sendCheck_kept fun hr => ⟨hr.2 c x hx, ?_⟩)).mono
          exact (Nat.succ_le_of_lt hlt).trans hr.1.probeTries_le
        case isFalse => exact hadv.trans (goneUnanswered_kept c x _)
      · exact hadv.trans (goneUnanswered_kept c x _)
    · exact (Kept.refl s₀ s).mono
    · exact (Kept.refl s₀ s).mono
    · exact (Kept.refl s₀ s).mono

theorem silenceTimerExpiry_kept {s t : State} (h : execSilenceTimerExpiry s = .next t) :
    Kept s₀ 0 s t := by
  unfold execSilenceTimerExpiry at h
  cases h
  split
  · exact Kept.refl s₀ s
  case h_2 d _ =>
    refine Kept.then_setPart (Kept.trans (n := 0) (m := 0)
      ((advanceTo_kept d s).trans (kept_line (p := { s.port with alive := false, silence := none })
        _ rfl rfl rfl)) ?_)
    exact kept_change _ rfl

/-! ### The transmitter (spec/07.4) -/

/-- A head that is not in its jam may be sent. -/
theorem HeadSound.of_not_jamming {tx tx' : Transmitter} {m : QueuedMessage} (h : HeadSound tx m)
    (htx : ∀ t, tx ≠ .jamming t) : HeadSound tx' m :=
  ⟨h.1, fun _ => h.2 htx⟩

theorem kept_transmitter {s : State} {p : SegmentPort} (hi : p.inbound = s.port.inbound)
    (hq : p.queue = s.port.queue) (htx : ∀ t, s.port.tx ≠ .jamming t) :
    Kept s₀ 0 s { s with port := p } := by
  refine kept_port s hi fun _ h => ?_
  obtain ⟨hwaiting, hhead⟩ := queueSound_iff.1 h
  refine queueSound_iff.2 ⟨?_, fun m hm => ?_⟩
  · change WaitingSound p.queue.tail
    rwa [hq]
  · change p.queue.head? = some m at hm
    exact (hhead m (hq ▸ hm)).of_not_jamming htx

theorem beginAt_kept {t : Nat} {s : State} (htx : ∀ t, s.port.tx ≠ .jamming t) :
    Kept s₀ 0 s (beginAt t s) := by
  refine Kept.trans (n := 0) (m := 0) (advanceTo_kept t s) ?_
  exact kept_transmitter rfl rfl htx

theorem attemptBegin_kept {s t : State} (h : execAttemptBegin s = .next t) : Kept s₀ 0 s t := by
  unfold execAttemptBegin at h
  cases h
  split
  case h_1 htx => exact beginAt_kept (by simp [htx])
  case h_2 htx =>
    split
    · exact Kept.refl s₀ s
    · exact beginAt_kept (by simp [htx])
  all_goals exact Kept.refl s₀ s

theorem carrierRises_kept (s : State) : Kept s₀ 0 s (carrierRises s) := kept_line s rfl rfl rfl

theorem carrierRise_kept {s t : State} (h : execCarrierRise s = .next t) : Kept s₀ 0 s t := by
  unfold execCarrierRise at h
  cases h
  split
  · exact Kept.refl s₀ s
  · split
    case h_1 htx =>
      split
      · exact carrierRises_kept s
      · exact kept_transmitter rfl rfl (by simp [htx])
    all_goals exact carrierRises_kept s

theorem ownCarrierFalls_kept (s : State) : Kept s₀ 0 s (ownCarrierFalls s) := by
  unfold ownCarrierFalls
  split
  · exact Kept.refl s₀ s
  · exact kept_line s rfl rfl rfl

theorem endSurvival_kept (s : State) : Kept s₀ 0 s (endSurvival s) := by
  have hended : Kept s₀ 0 s { s with port.surviving := false } := kept_line s rfl rfl rfl
  simp only [endSurvival]
  split
  · split
    · exact hended.then_finish
    all_goals exact hended
  all_goals exact hended

theorem endAttempt_kept (s : State) : Kept s₀ 0 s (endAttempt s) := by
  unfold endAttempt
  split
  · exact endSurvival_kept s
  · exact Kept.refl s₀ s

theorem headLeaves_kept {o : NoticeOutcome} {m : QueuedMessage} {rest : List QueuedMessage}
    {s : State} (h : QueueSound s₀ → WaitingSound rest) : Kept s₀ 0 s (headLeaves o m rest s) := by
  have hleft : Kept s₀ 0 s { s with port.queue := rest } := by
    refine kept_port s rfl fun h₀ _ => queueSound_iff.2
      ⟨(h h₀).sublist (List.tail_sublist rest), fun n hn => ?_⟩
    exact headSound_fresh _ ((h h₀).2 n (List.mem_of_mem_head? hn))
  exact hleft.then_reportAll.trans (promote_kept h)

theorem attemptSent_kept {s t : State} (h : execAttemptSent s = .next t) : Kept s 0 s t := by
  unfold execAttemptSent at h
  cases h
  split
  case h_1 start m rest htx hq =>
    exact (((advanceTo_kept _ s).trans (ownCarrierFalls_kept _)).trans
      (headLeaves_kept fun h => ((queueSound_cons hq).1 h).1)).trans (endAttempt_kept _)
  case h_2 => exact Kept.refl s s

theorem collisionSignal_kept {s t : State} (h : execCollisionSignal s = .next t) :
    Kept s₀ 0 s t := by
  unfold execCollisionSignal at h
  cases h
  split
  case h_1 start m rest htx hq =>
    refine kept_port s rfl fun _ h => ?_
    obtain ⟨hwaiting, _, hhead⟩ := (queueSound_cons hq).1 h
    refine (queueSound_cons rfl).2 ⟨hwaiting, ?_, fun hn => absurd rfl (hn _)⟩
    exact Nat.succ_le_succ (hhead (by simp [htx]))
  case h_2 => exact Kept.refl s₀ s

theorem backOff_kept {s : State} {m : QueuedMessage} {rest : List QueuedMessage} {n : Nat}
    (hq : s.port.queue = m :: rest) (hm : m.collisions ≤ 11) : Kept s₀ 0 s (backOff n s) := by
  have hdraw : Kept s₀ 0 s { s with freeUsed := s.freeUsed + 1 } :=
    kept_freeUsed s (Nat.le_succ _)
  have hqueue (h : QueueSound s) : WaitingSound s.port.queue.tail
      ∧ ∀ n, s.port.queue.head? = some n → n.collisions ≤ 11 := by
    refine ⟨(queueSound_iff.1 h).1, fun n hn => ?_⟩
    rw [hq] at hn
    cases hn
    exact hm
  simp only [backOff]
  split
  · exact Kept.trans (n := 0) (m := 0) hdraw (takeUp_kept fun _ h => hqueue h)
  · refine Kept.trans (n := 0) (m := 0) hdraw (kept_port _ rfl fun _ h => ?_)
    exact queueSound_iff.2 ⟨(hqueue h).1, fun n hn =>
      ⟨Nat.le_succ_of_le ((hqueue h).2 n hn), fun _ => (hqueue h).2 n hn⟩⟩

theorem jamEnd_kept {s t : State} (h : execJamEnd s = .next t) : Kept s 0 s t := by
  unfold execJamEnd at h
  cases h
  split
  case h_1 start m rest htx hq =>
    have hover : Kept s 0 s (ownCarrierFalls (advanceTo start s)) :=
      (advanceTo_kept _ s).trans (ownCarrierFalls_kept _)
    have hrest (h : QueueSound s) : WaitingSound rest := ((queueSound_cons hq).1 h).1
    refine Kept.trans (n := 0) (m := 0) hover ?_
    unfold jamEnds
    split
    · exact (headLeaves_kept hrest).trans (endSurvival_kept _)
    split
    · exact (count_kept _ _).trans (headLeaves_kept hrest)
    case isFalse hlim =>
      refine backOff_kept (m := m) (rest := rest) ?_ (Nat.le_of_lt_succ (Nat.not_le.1 hlim))
      unfold ownCarrierFalls
      split <;> exact hq
  case h_2 => exact Kept.refl s s

theorem backoffEnd_kept {s t : State} (h : execBackoffEnd s = .next t) : Kept s₀ 0 s t := by
  unfold execBackoffEnd at h
  cases h
  split
  case h_1 stop htx =>
    refine Kept.trans (n := 0) (m := 0) (advanceTo_kept stop s)
      (takeUp_kept (s := advanceTo stop s) (q := s.port.queue) fun _ h => ?_)
    obtain ⟨hwaiting, hhead⟩ := queueSound_iff.1 h
    exact ⟨hwaiting, fun m hm => (hhead m hm).2 (by simp [htx])⟩
  all_goals exact Kept.refl s₀ s

end Sys2Proof.Machine
end

section
/-! What every command keeps, and the obligations that follow: each command answers next, the
invariants of the blocks are kept, and the generations tell what changed. -/

namespace Sys2Proof.Machine

-- One lemma is elaborated after another, which keeps the check's memory low.
set_option Elab.async false

/-! ### Every command but COLD_RESET -/

/-- A command answers next, and what it leads to is kept. -/
def AnswersKept (s : State) (o : Host.Outcome State Fault Refusal) : Prop :=
  ∃ t n, o = .next t ∧ n ≤ 160 ∧ Kept s n s t

theorem answersKept_next {s t : State} {n : Nat} (h : Kept s n s t) (hn : n ≤ 160 := by omega) :
    AnswersKept s (.next t) := ⟨t, n, rfl, hn, h⟩

theorem answersKept_command {n : Nat} {code : Byte} {suits : Nat → Bool}
    {body : List Byte → State → State} (f : CommandFrame) (s : State)
    (h : ∀ u, suits f.params.length = true → Kept s n u (body f.params u))
    (hn : n ≤ 160 := by omega) : AnswersKept s (.next (takeCommand code suits f body s)) :=
  answersKept_next (takeCommand_kept f s h) hn

theorem exec_answersKept (c : Instr) (s : State) (hc : c ≠ .coldReset) :
    AnswersKept s (exec c s) := by
  cases c with
  | coldReset => exact absurd rfl hc
  | configure f => exact answersKept_command f s fun u _ => configure_kept u
  | readParameter f => exact answersKept_command f s fun u _ => readParameter_kept u
  | enable f => exact answersKept_command f s fun u _ => enable_kept u
  | disable f => exact answersKept_command f s fun u _ => disable_kept u
  | suspend f => exact answersKept_command f s fun u _ => suspend_kept u
  | resume f => exact answersKept_command f s fun u _ => resume_kept u
  | filterPut f => exact answersKept_command f s fun u _ => filterPut_kept u
  | filterRemove f => exact answersKept_command f s fun u _ => filterRemove_kept u
  | filterRead f => exact answersKept_command f s fun u _ => filterRead_kept u
  | addStatic f => exact answersKept_command f s fun u hl => addStatic_kept (by simpa using hl) u
  | edit f => exact answersKept_command f s fun u hl => edit_kept (by simpa using hl) u
  | revoke f => exact answersKept_command f s fun u _ => revoke_kept u
  | confirmKeep f => exact answersKept_command f s fun u _ => confirmKeep_kept u
  | confirmEvict f => exact answersKept_command f s fun u _ => confirmEvict_kept u
  | readEntry f => exact answersKept_command f s fun u _ => readEntry_kept u
  | findAddress f => exact answersKept_command f s fun u _ => findAddress_kept u
  | lookup f => exact answersKept_command f s fun u _ => lookup_kept u
  | readContext f => exact answersKept_command f s fun u _ => readContext_kept u
  | readDeferrals f => exact answersKept_command f s fun u _ => readDeferrals_kept u
  | nextChange f => exact answersKept_command f s fun u _ => nextChange_kept u
  | readCounters f => exact answersKept_command f s fun u _ => readCounters_kept u
  | interruptSetup f => exact answersKept_command f s fun u _ => interruptSetup_kept u
  | flush f => exact answersKept_command f s fun u _ => flush_kept u
  | portRestart f => exact answersKept_command f s fun u _ => portRestart_kept u
  | result => exact answersKept_next (takeTransaction_kept (fixReply_kept s))
  | resultRelease n =>
    refine answersKept_next (n := 0) ?_
    split
    · simp only []
      split
      · exact kept_host s _
      · exact kept_host s _
    · exact kept_host s _
    · exact kept_host s _
    · exact kept_host s _
    · exact Kept.refl s s
  | status => exact answersKept_next (takeTransaction_kept (takeStatus_kept s))
  | abort =>
    exact answersKept_next (takeTransaction_kept
      (Kept.trans (n := 0) (m := 0) (kept_host s { s.host with transaction := .filler })
        (abort_kept _)))
  | receiveMessage bytes extra => exact answersKept_next (receiveMessage_kept rfl)
  | join => exact answersKept_next (dispatch_kept fun r u _ => takeJoin_kept r u)
  | extend => exact answersKept_next (dispatch_kept fun r u _ => takeExtend_kept r u)
  | agree => exact answersKept_next (dispatch_kept fun r u _ => takeAgree_kept r u)
  | reply => exact answersKept_next (dispatch_kept fun r u _ => takeReply_kept r u)
  | keep => exact answersKept_next (dispatch_kept fun r u hr => takeKeep_kept hr)
  | leave => exact answersKept_next (dispatch_kept fun r u _ => takeLeave_kept r u)
  | find => exact answersKept_next (dispatch_kept fun r u _ => takeFind_kept r u)
  | walkExamination =>
    refine answersKept_next (n := 0) ?_
    split
    · exact Kept.refl s s
    case h_2 hw => exact examineBus_kept hw
    case h_3 hw => exact examineHost_kept hw
  | leaseTick => exact answersKept_next (leaseTick_kept rfl)
  | boundExpiry i => exact answersKept_next (expiryEvent_kept fun _ h => expireBound_kept h)
  | lapsingExpiry i => exact answersKept_next (expiryEvent_kept fun _ h => lapsingExpiry_kept h)
  | heldExpiry i => exact answersKept_next (expiryEvent_kept fun u _ => freeEntry_kept i u)
  | legacySilenceExpiry i => exact answersKept_next (expiryEvent_kept fun u _ => freeEntry_kept i u)
  | settleExpiry => exact answersKept_next (settleExpiry_kept rfl)
  | pageTimerExpiry k => exact answersKept_next (pageExpires_kept k s)
  | agreeTimerExpiry k => exact answersKept_next (agreeExpires_kept k s)
  | probeTimerExpiry k => exact answersKept_next (probeExpires_kept k s)
  | silenceTimerExpiry => exact answersKept_next (silenceTimerExpiry_kept rfl)
  | attemptBegin => exact answersKept_next (attemptBegin_kept rfl)
  | carrierRise => exact answersKept_next (carrierRise_kept rfl)
  | attemptSent => exact answersKept_next (attemptSent_kept rfl)
  | collisionSignal => exact answersKept_next (collisionSignal_kept rfl)
  | jamEnd => exact answersKept_next (jamEnd_kept rfl)
  | backoffEnd => exact answersKept_next (backoffEnd_kept rfl)

theorem exec_kept {c : Instr} {s t : State} (hc : c ≠ .coldReset) (h : exec c s = .next t) :
    ∃ n, n ≤ 160 ∧ Kept s n s t := by
  obtain ⟨u, n, hu, hn, hk⟩ := exec_answersKept c s hc
  cases hu.symm.trans h
  exact ⟨n, hn, hk⟩

/-! ### COLD_RESET -/

theorem entry_reset (i : Index) : entry State.reset i = Entry.freeAt 0 := by
  simp [entry, State.reset]

theorem context_reset (c : CtxNum) : context State.reset c = none := by
  simp [context, State.reset]

theorem paramsSound_default : ParamsSound Params.default := by
  refine ⟨fun k hk => ?_, by decide, by decide, by decide, by decide, by decide⟩
  cases k
  case priority => exact absurd rfl hk
  case windowCap c => simp [Params.get, Params.default, Param.inRange]
  all_goals decide

theorem tableSound_reset : TableSound State.reset :=
  ⟨paramsSound_default, fun i => by rw [entry_reset]; exact entrySound_freeAt 0,
    fun i j a hi => absurd (entry_reset i ▸ hi) nofun,
    fun i j x hi => absurd (entry_reset i ▸ hi) nofun⟩

theorem clockSound_reset : ClockSound State.reset :=
  ⟨by simp [State.reset], by simp [State.reset], nofun, nofun, by decide⟩

theorem lookupSound_reset : LookupSound State.reset := ⟨fun _ => ⟨rfl, rfl⟩, Nat.zero_le _, nofun⟩

theorem queueSound_reset : QueueSound State.reset := queueSound_nil rfl

theorem valuesInRange_reset : ValuesInRange State.reset :=
  ⟨paramsSound_default, fun i => by rw [entry_reset]; exact entryInRange_freeAt 0,
    fun c x hx => absurd (context_reset c ▸ hx) nofun, nofun, Nat.zero_le _, nofun,
    fun k => by simp [counter, State.reset]⟩

/-- An invariant that reads of the state neither the clock, the free values and the queue of commands
nor the line and the host transaction holds after a cold reset as it does at reset. -/
theorem coldReset_keeps {P : State → Prop} {s t : State} (h : exec .coldReset s = .next t)
    (hP : ∀ carrier overlapped quietFrom transaction now freeUsed pending,
      P { State.reset with
        port.carrier := carrier, port.overlapped := overlapped, port.quietFrom := quietFrom,
        host.transaction := transaction, now := now, freeUsed := freeUsed, pending := pending }) :
    P t := by
  cases h
  exact hP _ _ _ _ _ _ _

/-! ### One step -/

/-- An invariant that every command keeps, with time and the queue of commands no part of it, is kept
by every step. -/
theorem step_keeps {P : State → Prop} {s t : State}
    (hpending : ∀ rest u, P u → P { u with pending := rest })
    (htime : ∀ n u, P u → P (advanceTo n u))
    (hexec : ∀ c u v, exec c u = .next v → P u → P v)
    (h : step s = .next t) (hs : P s) : P t := by
  unfold step at h
  split at h
  · cases h
    exact htime _ _ hs
  · exact hexec _ _ _ h (hpending _ _ hs)

/-- A property of the state that `Kept` keeps and that a cold reset establishes is kept by every
command. -/
theorem exec_keeps {P : State → Prop} {c : Instr} {s t : State} (h : exec c s = .next t)
    (hkept : ∀ n, Kept s n s t → P t) (hreset : c = .coldReset → P t) : P t := by
  by_cases hc : c = .coldReset
  · exact hreset hc
  · obtain ⟨n, _, hk⟩ := exec_kept hc h
    exact hkept n hk

/-! ### The obligations -/

/-- Settles O7: each command keeps the soundness of the table, and so does the time that passes. -/
theorem tableSoundKept : Obligations.TableSoundKept := fun _ _ hs h =>
  step_keeps (P := TableSound) (fun _ _ => id) (fun _ _ => id)
    (fun _ _ _ hv hu => exec_keeps hv (fun _ hk => hk.table hu hu) fun hc =>
      coldReset_keeps (hc ▸ hv) fun _ _ _ _ _ _ _ => tableSound_reset) h hs

/-- Settles O13: each command keeps all values in range. -/
theorem valuesInRangeKept : Obligations.ValuesInRangeKept := fun _ _ hs h =>
  step_keeps (P := ValuesInRange) (fun _ _ => id) (fun _ _ => id)
    (fun _ _ _ hv hu => exec_keeps hv (fun _ hk => hk.values hu hu) fun hc =>
      coldReset_keeps (hc ▸ hv) fun _ _ _ _ _ _ _ => valuesInRange_reset) h hs

/-- Settles O14: a command advances a generation far fewer times than make it wrap around. -/
theorem generationTellsChange : Obligations.GenerationTellsChange := by
  intro c s t i hc h hg
  obtain ⟨n, hn, hk⟩ := exec_kept hc h
  exact hk.generations.tracked (by omega) hg

/-- Settles O2: all commands but COLD_RESET by what they keep, COLD_RESET by its definition. -/
theorem everyCommandAnswersNext : Obligations.EveryCommandAnswersNext := by
  intro c s
  by_cases hc : c = .coldReset
  · subst hc
    exact ⟨_, rfl, rfl, le_rfl, le_rfl⟩
  · obtain ⟨t, n, ht, _, hk⟩ := exec_answersKept c s hc
    exact ⟨t, ht, hk.pending, hk.now, hk.freeUsed⟩

/-- Settles O9: each command keeps the clock and the settle timer to their phases. -/
theorem clockSoundKept : Obligations.ClockSoundKept := fun _ _ hs h =>
  step_keeps (P := ClockSound) (fun _ _ => id) (fun _ _ => id)
    (fun _ _ _ hv hu => exec_keeps hv (fun _ hk => hk.clock hu) fun hc =>
      coldReset_keeps (hc ▸ hv) fun _ _ _ _ _ _ _ => clockSound_reset) h hs

/-- Settles O10: each command keeps the lookup unit's capacities and leaves nothing waiting. -/
theorem lookupSoundKept : Obligations.LookupSoundKept := fun _ _ hs h =>
  step_keeps (P := LookupSound) (fun _ _ => id) (fun _ _ => id)
    (fun _ _ _ hv hu => exec_keeps hv (fun _ hk => hk.lookup hu) fun hc =>
      coldReset_keeps (hc ▸ hv) fun _ _ _ _ _ _ _ => lookupSound_reset) h hs

/-- Settles O12: each command keeps waiting messages apart and collisions bounded. -/
theorem queueSoundKept : Obligations.QueueSoundKept := fun _ _ hw hc h =>
  step_keeps (P := QueueSound) (fun _ _ => id) (fun _ _ => id)
    (fun _ _ _ hv hu => exec_keeps hv (fun _ hk => hk.queue hu hu) fun hr =>
      coldReset_keeps (hr ▸ hv) fun _ _ _ _ _ _ _ => queueSound_reset) h ⟨hw, hc⟩

end Sys2Proof.Machine
end

section
/-! The join unit's invariant (R58, R61): what of the state it reads, and what changes keep it while a
probe is being decided and while a teardown is under way. -/

namespace Sys2Proof.Machine

-- One lemma is elaborated after another, which keeps the check's memory low.
set_option Elab.async false

/-! ### What the join unit's invariant reads -/

/-- What the invariant reads of an entry: whether it is RESERVED, live and leased, and what it holds. -/
def Entry.joinView (e : Entry) : Bool × Bool × Bool × Option Identity × Option Nat :=
  (e.state == .reserved, e.live, e.leased, e.identity, e.address)

/-- What the invariant reads of a context. -/
def Exchange.joinView (x : Exchange) : Identity × Bool × Option Index × Option Offer :=
  (x.identity, x.checking, x.target, x.stage.offer?)

/-- A change that leaves the join unit's invariant what it reads; the inbound buffer may only empty. -/
structure JoinFrame (s t : State) : Prop where
  entries : ∀ i, (entry t i).joinView = (entry s i).joinView
  contexts : ∀ c, (context t c).map Exchange.joinView = (context s c).map Exchange.joinView
  deferrals : t.admission.deferrals = s.admission.deferrals
  phase : t.phase.phase = s.phase.phase
  inbound : s.port.inbound = [] → t.port.inbound = []

section Views

variable {e e' : Entry} {x y : Exchange}

theorem joinView_entry (h : e.joinView = e'.joinView) :
    (e.state = .reserved ↔ e'.state = .reserved) ∧ e.live = e'.live ∧ e.leased = e'.leased
      ∧ e.identity = e'.identity ∧ e.address = e'.address := by
  simp only [Entry.joinView, Prod.mk.injEq] at h
  obtain ⟨hr, hrest⟩ := h
  exact ⟨by rw [← beq_iff_eq, hr, beq_iff_eq], hrest⟩

theorem joinView_exchange (h : x.joinView = y.joinView) :
    x.identity = y.identity ∧ x.checking = y.checking ∧ x.target = y.target
      ∧ x.stage.offer? = y.stage.offer? := by
  simpa [Exchange.joinView] using h

theorem offer?_eq_some {g : Stage} {o : Offer} : g.offer? = some o ↔ g = .offered o := by
  cases g <;> simp [Stage.offer?]

theorem offer?_eq_none {g : Stage} : g.offer? = none ↔ ∀ o, g ≠ .offered o := by
  cases g <;> simp [Stage.offer?]

theorem offer?_of_checking (h : x.checking = true) : x.stage.offer? = none := by
  unfold Exchange.checking at h
  split at h
  case h_1 n t hs => rw [hs]; rfl
  case h_2 => exact nomatch h
  case h_3 => exact nomatch h

end Views

section Frames

variable {s t u : State}

theorem JoinFrame.refl (s : State) : JoinFrame s s := ⟨fun _ => rfl, fun _ => rfl, rfl, rfl, id⟩

theorem JoinFrame.trans (h : JoinFrame s t) (h' : JoinFrame t u) : JoinFrame s u :=
  ⟨fun i => (h'.entries i).trans (h.entries i), fun c => (h'.contexts c).trans (h.contexts c),
    h'.deferrals.trans h.deferrals, h'.phase.trans h.phase, h'.inbound ∘ h.inbound⟩

/-- Nothing of the table, the contexts, the deferrals, the phase and the buffer changes. -/
theorem JoinFrame.of_eq (ht : t.table = s.table := by simp)
    (hj : t.join.contexts = s.join.contexts := by simp)
    (hd : t.admission.deferrals = s.admission.deferrals := by simp)
    (hp : t.phase.phase = s.phase.phase := by simp)
    (hi : s.port.inbound = [] → t.port.inbound = [] := by simp) : JoinFrame s t :=
  ⟨fun i => by rw [entry, ht]; rfl, fun c => by rw [context, hj]; rfl, hd, hp, hi⟩

theorem JoinFrame.context_some {c : CtxNum} {y : Exchange} (h : JoinFrame s t)
    (hy : context t c = some y) : ∃ x, context s c = some x ∧ y.joinView = x.joinView := by
  have hc := h.contexts c
  rw [hy, Option.map_some, eq_comm, Option.map_eq_some_iff] at hc
  obtain ⟨x, hx, hv⟩ := hc
  exact ⟨x, hx, hv.symm⟩

theorem JoinFrame.symm_context_some {c : CtxNum} {x : Exchange} (h : JoinFrame s t)
    (hx : context s c = some x) : ∃ y, context t c = some y ∧ y.joinView = x.joinView := by
  have hc := h.contexts c
  rw [hx, Option.map_some, Option.map_eq_some_iff] at hc
  exact hc

theorem JoinFrame.context_none {c : CtxNum} (h : JoinFrame s t) (hx : context s c = none) :
    context t c = none := by
  have hc := h.contexts c
  rwa [hx, Option.map_none, Option.map_eq_none_iff] at hc

end Frames

/-! ### The invariant while a probe is decided -/

/-- The join unit's invariant, but that the probe of context `k` may have lost its live target, and the
quiet phases are required only where `q`: the shape it has between the end of a binding and the outcome
GONE, and in the midst of a teardown. -/
structure JoinPart (k : Option CtxNum) (q : Prop) (s : State) : Prop where
  unique : ContextsUnique s
  offers : OffersReserved s
  reserved : ReservedOffered s
  probes : ∀ c x, k ≠ some c → context s c = some x → x.checking = true →
    ∃ i, x.target = some i ∧ (entry s i).live = true ∧ (entry s i).leased = true
      ∧ (entry s i).identity = some x.identity
  deferrals : DeferralsSound s
  quiet : q → QuietPhases s

theorem joinSound_iff {s : State} : JoinSound s ↔ JoinPart none True s :=
  ⟨fun ⟨hu, ho, hr, hp, hd, hq⟩ => ⟨hu, ho, hr, fun c x _ => hp c x, hd, fun _ => hq⟩,
    fun h => ⟨h.unique, h.offers, h.reserved, fun c x => h.probes c x nofun, h.deferrals,
      h.quiet trivial⟩⟩

section Parts

variable {s t : State} {k : Option CtxNum} {q : Prop} {c : CtxNum} {x y : Exchange} {i : Index}

theorem JoinPart.excuse (h : JoinPart none q s) (k : Option CtxNum) : JoinPart k q s :=
  { h with probes := fun c x _ => h.probes c x nofun }

/-- A probe is no longer excused once its context probes no more. -/
theorem JoinPart.of_excused (h : JoinPart (some c) q s)
    (hc : ∀ x, context s c = some x → x.checking = false) : JoinPart none q s :=
  { h with
    probes := fun d x _ hx hch => by
      by_cases hdc : d = c
      · cases hdc
        exact absurd ((hc x hx).symm.trans hch) nofun
      · exact h.probes d x (fun he => hdc (Option.some.inj he).symm) hx hch }

theorem JoinFrame.part (hf : JoinFrame s t) (h : JoinPart k q s) : JoinPart k q t where
  unique c d x y hx hy he := by
    obtain ⟨x', hx', hvx⟩ := hf.context_some hx
    obtain ⟨y', hy', hvy⟩ := hf.context_some hy
    obtain ⟨hxi, _⟩ := joinView_exchange hvx
    obtain ⟨hyi, _⟩ := joinView_exchange hvy
    exact h.unique c d x' y' hx' hy' (hxi.symm.trans (he.trans hyi))
  offers c y o hy ho := by
    obtain ⟨x, hx, hv⟩ := hf.context_some hy
    obtain ⟨hid, _, _, hoff⟩ := joinView_exchange hv
    obtain ⟨hr, _, _, hei, hea⟩ := joinView_entry (hf.entries o.entry)
    rw [hr, hei, hea, hid]
    exact h.offers c x o hx (offer?_eq_some.1 (hoff ▸ offer?_eq_some.2 ho))
  reserved i hi := by
    obtain ⟨hr, _⟩ := joinView_entry (hf.entries i)
    obtain ⟨c, x, o, hx, ho, he⟩ := h.reserved i (hr.1 hi)
    obtain ⟨y, hy, hv⟩ := hf.symm_context_some hx
    obtain ⟨_, _, _, hoff⟩ := joinView_exchange hv
    exact ⟨c, y, o, hy, offer?_eq_some.1 (hoff ▸ offer?_eq_some.2 ho), he⟩
  probes c y hk hy hc := by
    obtain ⟨x, hx, hv⟩ := hf.context_some hy
    obtain ⟨hid, hch, htar, _⟩ := joinView_exchange hv
    obtain ⟨i, hi, hl, hle, hii⟩ := h.probes c x hk hx (hch ▸ hc)
    obtain ⟨_, hlive, hleased, hei, _⟩ := joinView_entry (hf.entries i)
    exact ⟨i, htar.trans hi, hlive.trans hl, hleased.trans hle, by rw [hei, hii, hid]⟩
  deferrals := by
    obtain ⟨hlen, hnd, hcount, hfree⟩ := h.deferrals
    unfold DeferralsSound
    rw [hf.deferrals]
    refine ⟨hlen, hnd, hcount, fun c y hy d hd => ?_⟩
    obtain ⟨x, hx, hv⟩ := hf.context_some hy
    rw [(joinView_exchange hv).1]
    exact hfree c x hx d hd
  quiet hq := by
    obtain ⟨hcontexts, hinbound⟩ := h.quiet hq
    unfold QuietPhases
    rw [hf.phase]
    exact ⟨fun hp c => hf.context_none (hcontexts hp c), fun hp => hf.inbound (hinbound hp)⟩

theorem JoinFrame.sound (hf : JoinFrame s t) (h : JoinSound s) : JoinSound t :=
  joinSound_iff.2 (hf.part (joinSound_iff.1 h))

/-! ### One entry changed -/

/-- An entry in a change request or not, of which the join unit sees what it saw. -/
theorem JoinFrame.of_entries (h : ∀ i, (entry t i).joinView = (entry s i).joinView)
    (hj : t.join.contexts = s.join.contexts := by simp)
    (hd : t.admission.deferrals = s.admission.deferrals := by simp)
    (hp : t.phase.phase = s.phase.phase := by simp)
    (hi : s.port.inbound = [] → t.port.inbound = [] := by simp) : JoinFrame s t :=
  ⟨h, fun c => by rw [context, hj]; rfl, hd, hp, hi⟩

theorem changeEntry_joinFrame {new : Entry} (causes : CauseSet)
    (h : new.joinView = (entry s i).joinView) : JoinFrame s (changeEntry i new causes s) := by
  refine JoinFrame.of_entries fun j => ?_
  rw [entry_changeEntry]
  split
  case isTrue hj => exact hj ▸ h
  case isFalse => rfl

/-- An entry that is neither RESERVED nor probed becomes one that is not RESERVED. -/
theorem JoinPart.after_changeEntry {new : Entry} (h : JoinPart k q s) (causes : CauseSet)
    (hs : (entry s i).state ≠ .reserved) (hn : new.state ≠ .reserved)
    (hp : ∀ c x, k ≠ some c → context s c = some x → x.checking = true → x.target ≠ some i) :
    JoinPart k q (changeEntry i new causes s) where
  unique := h.unique
  offers c x o hx ho := by
    have hr := h.offers c x o hx ho
    have hne : o.entry ≠ i := fun he => hs (he ▸ hr.1)
    rw [entry_changeEntry, if_neg hne]
    exact hr
  reserved j hj := by
    rw [entry_changeEntry] at hj
    split at hj
    case isTrue => exact absurd hj hn
    case isFalse => exact h.reserved j hj
  probes c x hk hx hc := by
    obtain ⟨j, hj, hrest⟩ := h.probes c x hk hx hc
    have hne : j ≠ i := fun he => hp c x hk hx hc (he ▸ hj)
    refine ⟨j, hj, ?_⟩
    rw [entry_changeEntry, if_neg hne]
    exact hrest
  deferrals := h.deferrals
  quiet := h.quiet

/-- No probe runs against an entry that is not live and leased (R76). -/
theorem JoinPart.unprobed (h : JoinPart k q s)
    (hi : (entry s i).live = false ∨ (entry s i).leased = false) (c : CtxNum) (x : Exchange)
    (hk : k ≠ some c) (hx : context s c = some x) (hc : x.checking = true) : x.target ≠ some i := by
  intro ht
  obtain ⟨j, hj, hl, hle, _⟩ := h.probes c x hk hx hc
  cases ht.symm.trans hj
  obtain hi | hi := hi
  · exact absurd (hi.symm.trans hl) nofun
  · exact absurd (hi.symm.trans hle) nofun

theorem JoinPart.after_freeEntry (h : JoinPart k q s) (hs : (entry s i).state ≠ .reserved)
    (hi : (entry s i).live = false ∨ (entry s i).leased = false) : JoinPart k q (freeEntry i s) :=
  h.after_changeEntry _ hs nofun (h.unprobed hi)

/-! ### One context changed -/

theorem entry_setContext (c : CtxNum) (x : Option Exchange) (s : State) (i : Index) :
    entry (setContext c x s) i = entry s i := rfl

/-- A context that is given an exchange which is no offer. -/
theorem JoinPart.after_taking (h : JoinPart (some c) q s)
    (hc : ∀ x, context s c = some x → x.stage.offer? = none) (hy : y.stage.offer? = none)
    (hu : ∀ d x, d ≠ c → context s d = some x → x.identity ≠ y.identity)
    (hd : ∀ d ∈ s.admission.deferrals, d.identity ≠ y.identity)
    (hq : s.phase.phase ≠ .offline ∧ s.phase.phase ≠ .settling)
    (hp : y.checking = true → ∃ i, y.target = some i ∧ (entry s i).live = true
      ∧ (entry s i).leased = true ∧ (entry s i).identity = some y.identity) :
    JoinPart none q (setContext c (some y) s) where
  unique d e x z hx hz he := by
    rw [context_setContext] at hx hz
    split at hx <;> split at hz
    case isTrue.isTrue hdc hec => exact hdc.trans hec.symm
    case isTrue.isFalse hdc hec =>
      cases hx
      exact absurd he.symm (hu e z hec hz)
    case isFalse.isTrue hdc hec =>
      cases hz
      exact absurd he (hu d x hdc hx)
    case isFalse.isFalse => exact h.unique d e x z hx hz he
  offers d x o hx ho := by
    rw [context_setContext] at hx
    split at hx
    case isTrue =>
      cases hx
      exact absurd ho (offer?_eq_none.1 hy o)
    case isFalse => exact h.offers d x o hx ho
  reserved i hi := by
    obtain ⟨d, x, o, hx, ho, he⟩ := h.reserved i hi
    have hdc : d ≠ c := fun hdc => offer?_eq_none.1 (hc x (hdc ▸ hx)) o ho
    exact ⟨d, x, o, by rw [context_setContext, if_neg hdc]; exact hx, ho, he⟩
  probes d x _ hx hch := by
    rw [context_setContext] at hx
    split at hx
    case isTrue =>
      cases hx
      exact hp hch
    case isFalse hdc => exact h.probes d x (fun he => hdc (Option.some.inj he).symm) hx hch
  deferrals := by
    obtain ⟨hlen, hnd, hcount, hfree⟩ := h.deferrals
    refine ⟨hlen, hnd, hcount, fun d x hx e he => ?_⟩
    rw [context_setContext] at hx
    split at hx
    case isTrue =>
      cases hx
      exact hd e he
    case isFalse => exact hfree d x hx e he
  quiet hquiet := by
    refine ⟨fun hp => absurd hp (not_or.2 hq), fun hp => absurd hp hq.1⟩

/-- A context that is no offer becomes IDLE. -/
theorem JoinPart.after_closing (h : JoinPart (some c) q s)
    (hc : ∀ x, context s c = some x → x.stage.offer? = none) :
    JoinPart none q (setContext c none s) where
  unique d e x z hx hz := by
    rw [context_setContext, ite_eq_iff] at hx hz
    obtain ⟨_, hx⟩ | ⟨_, hx⟩ := hx
    · exact nomatch hx
    obtain ⟨_, hz⟩ | ⟨_, hz⟩ := hz
    · exact nomatch hz
    exact h.unique d e x z hx hz
  offers d x o hx ho := by
    rw [context_setContext] at hx
    split at hx
    case isTrue => exact absurd hx nofun
    case isFalse => exact h.offers d x o hx ho
  reserved i hi := by
    obtain ⟨d, x, o, hx, ho, he⟩ := h.reserved i hi
    have hdc : d ≠ c := fun hdc => offer?_eq_none.1 (hc x (hdc ▸ hx)) o ho
    exact ⟨d, x, o, by rw [context_setContext, if_neg hdc]; exact hx, ho, he⟩
  probes d x _ hx hch := by
    rw [context_setContext] at hx
    split at hx
    case isTrue => exact absurd hx nofun
    case isFalse hdc => exact h.probes d x (fun he => hdc (Option.some.inj he).symm) hx hch
  deferrals := by
    obtain ⟨hlen, hnd, hcount, hfree⟩ := h.deferrals
    refine ⟨hlen, hnd, hcount, fun d x hx e he => ?_⟩
    rw [context_setContext] at hx
    split at hx
    case isTrue => exact absurd hx nofun
    case isFalse => exact hfree d x hx e he
  quiet hq := by
    obtain ⟨hcontexts, hinbound⟩ := h.quiet hq
    refine ⟨fun hp d => ?_, hinbound⟩
    rw [context_setContext]
    split
    case isTrue => rfl
    case isFalse => exact hcontexts hp d

end Parts

end Sys2Proof.Machine
end

section
/-! What the shared operations do to the join unit's invariant: answers, closings, resolution and the
outcome of a probe (spec/04, spec/05). -/

namespace Sys2Proof.Machine

-- One lemma is elaborated after another, which keeps the check's memory low.
set_option Elab.async false

/-! ### Operations of which the join unit sees nothing -/

section Frames

variable {s t : State}

theorem finish_joinFrame (st : Status) (d : List Byte) (s : State) : JoinFrame s (finish st d s) := by
  rw [finish_eq_host]
  exact JoinFrame.of_eq

theorem JoinFrame.then_finish {st : Status} {d : List Byte} (h : JoinFrame s t) :
    JoinFrame s (finish st d t) := h.trans (finish_joinFrame st d t)

theorem waitFor_joinFrame (w : Work) (s : State) : JoinFrame s (waitFor w s) := by
  rw [waitFor_eq_host]
  exact JoinFrame.of_eq

theorem count_joinFrame (c : Counter) (s : State) : JoinFrame s (count c s) := JoinFrame.of_eq

theorem setPart_joinFrame (c : CauseSet) (s : State) : JoinFrame s (setPart c s) := JoinFrame.of_eq

theorem arbitrate_joinFrame (s : State) : JoinFrame s (arbitrate s) := by
  rw [arbitrate_eq_lookup]
  exact JoinFrame.of_eq

theorem advanceTo_joinFrame (n : Nat) (s : State) : JoinFrame s (advanceTo n s) := JoinFrame.of_eq

theorem takeUp_joinFrame (s : State) : JoinFrame s (takeUp s) := JoinFrame.of_eq

/-- A context given an exchange of which the invariant sees what it saw. -/
theorem setContext_joinFrame {c : CtxNum} {x y : Exchange} (hx : context s c = some x)
    (h : y.joinView = x.joinView) : JoinFrame s (setContext c (some y) s) := by
  refine ⟨fun _ => rfl, fun d => ?_, rfl, rfl, id⟩
  rw [context_setContext]
  split
  case isTrue hd => rw [hd, hx, Option.map_some, Option.map_some, h]
  case isFalse => rfl

theorem reportTo_joinFrame (o : NoticeOutcome) (w : Waiter) (s : State) :
    JoinFrame s (reportTo o w s) := by
  obtain hs | ⟨c, token, x, n, _, hx, hstage, hs⟩ | ⟨_, _, _, _, _, _, hs⟩ := reportTo_cases o w s <;>
    rw [hs]
  · exact JoinFrame.refl s
  · exact setContext_joinFrame hx (by simp [Exchange.joinView, Exchange.checking, hstage, Stage.offer?])
  · exact finish_joinFrame _ _ s

theorem reportAll_joinFrame (o : NoticeOutcome) (ws : List Waiter) (s : State) :
    JoinFrame s (reportAll o ws s) := by
  induction ws generalizing s with
  | nil => exact JoinFrame.refl s
  | cons w ws ih => exact (reportTo_joinFrame o w s).trans (ih _)

theorem handOver_joinFrame (d : Nat) (a : Answer) (ws : List Waiter) (s : State) :
    JoinFrame s (handOver d a ws s) := by
  obtain ⟨_, hs⟩ | ⟨_, _, hs⟩ | ⟨m, q, q', _, hq, hm, hs⟩ | ⟨m, q, _, hq, _, _, hs⟩
    | ⟨m, q, _, hq, hm, _, hs⟩ := handOver_cases d a ws s <;> rw [hs]
  · exact reportAll_joinFrame _ _ s
  · exact JoinFrame.of_eq
  · exact JoinFrame.of_eq
  · exact JoinFrame.trans JoinFrame.of_eq (reportAll_joinFrame _ _ _)
  · exact JoinFrame.of_eq

theorem send_joinFrame (d : Nat) (a : Answer) (s : State) : JoinFrame s (send d a s) :=
  handOver_joinFrame d a [] s

theorem refuse_joinFrame (d : Nat) (x : Identity) (k : ReqKind) (r : Reason) (s : State) :
    JoinFrame s (refuse d x k r s) := (count_joinFrame _ s).trans (send_joinFrame _ _ _)

theorem JoinFrame.then_refuse {d : Nat} {x : Identity} {k : ReqKind} {r : Reason}
    (h : JoinFrame s t) : JoinFrame s (refuse d x k r t) := h.trans (refuse_joinFrame d x k r t)

theorem promote_joinFrame (l : List QueuedMessage) (s : State) : JoinFrame s (promote l s) := by
  induction l generalizing s with
  | nil =>
    rw [promote]
    exact JoinFrame.of_eq
  | cons m rest ih =>
    rw [promote]
    split
    case isTrue => exact ((count_joinFrame _ s).trans (reportAll_joinFrame _ _ _)).trans (ih _)
    case isFalse => exact JoinFrame.of_eq

theorem accept_joinFrame (f : CommandFrame) (s : State) : JoinFrame s (accept f s) := JoinFrame.of_eq

/-- A dispute is added to a live entry, whose state and holder stay. -/
theorem addCollision_joinFrame (i : Index) (s : State) : JoinFrame s (addCollision i s) := by
  obtain hs | ⟨_, _, hs⟩ := addCollision_cases i s <;> rw [hs]
  · exact JoinFrame.refl s
  · refine JoinFrame.trans ?_ (count_joinFrame _ _)
    exact changeEntry_joinFrame _ rfl

theorem addDuplicate_joinFrame (i : Index) (s : State) : JoinFrame s (addDuplicate i s) := by
  obtain hs | ⟨_, _, hs⟩ := addDuplicate_cases i s <;> rw [hs]
  · exact JoinFrame.refl s
  · exact changeEntry_joinFrame _ rfl

/-- A renewed entry was live and stays live. -/
theorem renewed_joinView {e : Entry} (h : e.live = true) (n : Nat) :
    (e.renewed n).joinView = e.joinView := by
  simp [Entry.joinView, Entry.renewed, h, (live_states h).2.2, Entry.leased]
  simp [Entry.live]

theorem renewEntry_joinFrame {i : Index} (h : (entry s i).live = true) (n : Nat) :
    JoinFrame s (renewEntry i n s) := changeEntry_joinFrame _ (renewed_joinView h n)

end Frames

/-! ### Closing contexts (R63, R84) -/

section Closing

variable {s : State} {k : Option CtxNum} {q : Prop} {c : CtxNum}

/-- An OFFERED context becomes IDLE as its entry ceases to be RESERVED: the two go together. -/
theorem JoinPart.after_offer_ends {x : Exchange} {o : Offer} {new : Entry} {causes : CauseSet}
    (h : JoinPart (some c) q s) (hx : context s c = some x) (ho : x.stage = .offered o)
    (hn : new.state ≠ .reserved) :
    JoinPart none q (setContext c none (changeEntry o.entry new causes s)) where
  unique d e y z hy hz := by
    rw [context_setContext, ite_eq_iff] at hy hz
    obtain ⟨_, hy⟩ | ⟨_, hy⟩ := hy
    · exact nomatch hy
    obtain ⟨_, hz⟩ | ⟨_, hz⟩ := hz
    · exact nomatch hz
    exact h.unique d e y z hy hz
  offers d y p hy hp := by
    rw [context_setContext, ite_eq_iff] at hy
    obtain ⟨_, hy⟩ | ⟨hdc, hy⟩ := hy
    · exact nomatch hy
    have hr := h.offers d y p hy hp
    have hne : p.entry ≠ o.entry := fun he => by
      obtain ⟨_, hid, _⟩ := h.offers c x o hx ho
      exact hdc (h.unique d c y x hy hx (Option.some.inj (hr.2.1.symm.trans (he ▸ hid))))
    rw [entry_setContext, entry_changeEntry, if_neg hne]
    exact hr
  reserved i hi := by
    rw [entry_setContext, entry_changeEntry] at hi
    split at hi
    case isTrue => exact absurd hi hn
    case isFalse hne =>
      obtain ⟨d, y, p, hy, hp, rfl⟩ := h.reserved i hi
      have hdc : d ≠ c := fun hdc => by
        cases hdc
        cases hx.symm.trans hy
        cases ho.symm.trans hp
        exact hne rfl
      exact ⟨d, y, p, by rw [context_setContext, if_neg hdc]; exact hy, hp, rfl⟩
  probes d y _ hy hch := by
    rw [context_setContext, ite_eq_iff] at hy
    obtain ⟨_, hy⟩ | ⟨hdc, hy⟩ := hy
    · exact nomatch hy
    obtain ⟨i, hi, hl, hrest⟩ := h.probes d y (fun he => hdc (Option.some.inj he).symm) hy hch
    have hne : i ≠ o.entry := fun he => (live_states hl).2.2 (he ▸ (h.offers c x o hx ho).1)
    refine ⟨i, hi, ?_⟩
    rw [entry_setContext, entry_changeEntry, if_neg hne]
    exact ⟨hl, hrest⟩
  deferrals := by
    obtain ⟨hlen, hnd, hcount, hfree⟩ := h.deferrals
    refine ⟨hlen, hnd, hcount, fun d y hy e he => ?_⟩
    rw [context_setContext, ite_eq_iff] at hy
    obtain ⟨_, hy⟩ | ⟨_, hy⟩ := hy
    · exact nomatch hy
    exact hfree d y hy e he
  quiet hq := by
    obtain ⟨hcontexts, hinbound⟩ := h.quiet hq
    refine ⟨fun hp d => ?_, hinbound⟩
    rw [context_setContext]
    split
    case isTrue => rfl
    case isFalse => exact hcontexts hp d

theorem JoinPart.after_closeContext (h : JoinPart (some c) q s) :
    JoinPart none q (closeContext c s) := by
  obtain ⟨hx, hs⟩ | ⟨x, hx, ho, hs⟩ | ⟨x, o, hx, ho, hs⟩ := closeContext_cases c s <;> rw [hs]
  · exact h.of_excused fun y hy => absurd (hx.symm.trans hy) nofun
  · refine h.after_closing fun y hy => ?_
    cases hx.symm.trans hy
    exact offer?_eq_none.2 ho
  · rw [withdraw_of_reserved (h.offers c x o hx ho).1]
    exact h.after_offer_ends hx ho nofun

theorem JoinPart.after_closeRefused (h : JoinPart (some c) q s) (r : ReqKind) (w : Reason) :
    JoinPart none q (closeRefused c r w s) := by
  unfold closeRefused
  split
  case h_1 hx => exact h.of_excused fun y hy => absurd (hx.symm.trans hy) nofun
  case h_2 => exact (refuse_joinFrame _ _ _ _ _).part h.after_closeContext

theorem JoinPart.after_closeUnasked (h : JoinPart (some c) q s) (r : Reason) :
    JoinPart none q (closeUnasked c r s) := by
  have hf : JoinFrame s { s with freeUsed := s.freeUsed + 1 } := JoinFrame.of_eq
  exact (hf.part h).after_closeRefused _ _

theorem JoinPart.after_closeDuplicate (h : JoinPart (some c) q s) :
    JoinPart none q (closeDuplicate c s) :=
  ((count_joinFrame _ s).part h).after_closeUnasked _

/-- A closed context is IDLE, and the others are as they were. -/
theorem context_closeContext (c d : CtxNum) (s : State) :
    context (closeContext c s) d = if d = c then none else context s d := by
  obtain ⟨hx, hs⟩ | ⟨x, _, _, hs⟩ | ⟨x, o, _, _, hs⟩ := closeContext_cases c s <;> rw [hs]
  · split
    case isTrue hd => exact hd ▸ hx
    case isFalse => rfl
  · rw [context_setContext]
  · rw [context_setContext]
    simp [context]

theorem JoinPart.after_closing_each {l : List CtxNum} (h : JoinPart none q s) :
    JoinPart none q (l.foldl (fun s c => closeContext c s) s) := by
  induction l generalizing s with
  | nil => exact h
  | cons c l ih => exact ih (h.excuse (some c)).after_closeContext

theorem context_closing_each (l : List CtxNum) (c : CtxNum) (s : State) :
    context (l.foldl (fun s c => closeContext c s) s) c = if c ∈ l then none else context s c := by
  induction l generalizing s with
  | nil => rfl
  | cons d l ih =>
    rw [List.foldl_cons, ih, context_closeContext]
    by_cases hl : c ∈ l <;> simp [hl]

theorem context_closeAll (c : CtxNum) (s : State) : context (closeAll s) c = none := by
  unfold closeAll
  rw [context_closing_each, if_pos (List.mem_finRange c)]

end Closing

/-! ### Resolution (R75 to R79) -/

section Resolution

variable {s : State} {q : Prop} {c : CtxNum} {x y : Exchange} {o : Offer} {i : Index}

/-- A context that has made no offer is OFFERED an entry that is neither RESERVED nor probed for another
context: entry and context are matched in one event. -/
theorem JoinPart.after_offer {new : Entry} {causes : CauseSet} (h : JoinPart (some c) q s)
    (hx : context s c = some x) (hxo : x.stage.offer? = none) (hyx : y.identity = x.identity)
    (hyo : y.stage = .offered o) (hs : (entry s o.entry).state ≠ .reserved)
    (hp : ∀ d z, d ≠ c → context s d = some z → z.checking = true → z.target ≠ some o.entry)
    (hr : new.state = .reserved) (hid : new.identity = some x.identity)
    (ha : new.address = some o.address) :
    JoinPart none q (setContext c (some y) (changeEntry o.entry new causes s)) where
  unique d e z w hz hw he := by
    have hother (f : CtxNum) (v : Exchange) (hf : f ≠ c) (hv : context s f = some v) :
        v.identity ≠ y.identity := fun hvy => hf (h.unique f c v x hv hx (hvy.trans hyx))
    rw [context_setContext] at hz hw
    split at hz <;> split at hw
    case isTrue.isTrue hdc hec => exact hdc.trans hec.symm
    case isTrue.isFalse hdc hec =>
      cases hz
      exact absurd he.symm (hother e w hec hw)
    case isFalse.isTrue hdc hec =>
      cases hw
      exact absurd he (hother d z hdc hz)
    case isFalse.isFalse => exact h.unique d e z w hz hw he
  offers d z p hz hp := by
    rw [context_setContext] at hz
    rw [entry_setContext, entry_changeEntry]
    split at hz
    case isTrue =>
      cases hz
      cases hyo.symm.trans hp
      rw [if_pos rfl]
      exact ⟨hr, hyx ▸ hid, ha⟩
    case isFalse =>
      have ho := h.offers d z p hz hp
      have hne : p.entry ≠ o.entry := fun he => hs (he ▸ ho.1)
      rw [if_neg hne]
      exact ho
  reserved j hj := by
    rw [entry_setContext, entry_changeEntry] at hj
    split at hj
    case isTrue hji => exact ⟨c, y, o, by rw [context_setContext, if_pos rfl], hyo, hji.symm⟩
    case isFalse =>
      obtain ⟨d, z, p, hz, hp, he⟩ := h.reserved j hj
      have hdc : d ≠ c := fun hdc => by
        cases hdc
        cases hx.symm.trans hz
        exact offer?_eq_none.1 hxo p hp
      exact ⟨d, z, p, by rw [context_setContext, if_neg hdc]; exact hz, hp, he⟩
  probes d z _ hz hch := by
    rw [context_setContext] at hz
    split at hz
    case isTrue =>
      cases hz
      simp [Exchange.checking, hyo] at hch
    case isFalse hdc =>
      obtain ⟨j, hj, hrest⟩ := h.probes d z (fun he => hdc (Option.some.inj he).symm) hz hch
      have hne : j ≠ o.entry := fun he => hp d z hdc hz hch (he ▸ hj)
      refine ⟨j, hj, ?_⟩
      rw [entry_setContext, entry_changeEntry, if_neg hne]
      exact hrest
  deferrals := by
    obtain ⟨hlen, hnd, hcount, hfree⟩ := h.deferrals
    refine ⟨hlen, hnd, hcount, fun d z hz e he => ?_⟩
    rw [context_setContext] at hz
    split at hz
    case isTrue =>
      cases hz
      rw [hyx]
      exact hfree c x hx e he
    case isFalse => exact hfree d z hz e he
  quiet hq := by
    obtain ⟨hcontexts, hinbound⟩ := h.quiet hq
    exact ⟨fun hp => absurd (hx.symm.trans (hcontexts hp c)) nofun, hinbound⟩

/-- The entry that a context's identity settles on is not RESERVED while the context has no offer: a
RESERVED entry is that of another context, and no two contexts have one identity. -/
theorem JoinPart.settled_not_reserved {k : Option CtxNum} (h : JoinPart k q s) (hx : context s c = some x)
    (hxo : x.stage.offer? = none) (hi : (entry s i).identity = some x.identity) :
    (entry s i).state ≠ .reserved := by
  intro hr
  obtain ⟨d, z, o, hz, ho, rfl⟩ := h.reserved i hr
  obtain ⟨_, hid, _⟩ := h.offers d z o hz ho
  cases h.unique d c z x hz hx (Option.some.inj (hid.symm.trans hi))
  cases hx.symm.trans hz
  exact offer?_eq_none.1 hxo o ho

/-- Reclaim chooses a HELD entry (R18). -/
theorem reclaimable_held (h : reclaimable s = some i) : (entry s i).state = .held := by
  have hp := List.find?_some h
  simp only [Bool.and_eq_true, beq_iff_eq] at hp
  exact hp.1

/-- The entry a join takes: not RESERVED, and probed for no other context. -/
theorem JoinPart.after_joinEntry {t : State} {target : Option Index} (h : JoinPart (some c) q s)
    (hx : context s c = some x) (hxo : x.stage.offer? = none)
    (ht : ∀ j, target = some j → (entry s j).identity = some x.identity)
    (hj : joinEntry s target = some (i, t)) :
    JoinPart (some c) q t ∧ (entry t i).state ≠ .reserved
      ∧ ∀ d z, d ≠ c → context t d = some z → z.checking = true → z.target ≠ some i := by
  have hne {d : CtxNum} (hd : d ≠ c) : some c ≠ some d := fun he => hd (Option.some.inj he).symm
  obtain ⟨hti, rfl⟩ | ⟨_, hal⟩ := joinEntry_cases hj
  · refine ⟨h, h.settled_not_reserved hx hxo (ht i hti), fun d z hd hz hch hzt => hd ?_⟩
    obtain ⟨j, hj, _, _, hji⟩ := h.probes d z (hne hd) hz hch
    cases hzt.symm.trans hj
    exact h.unique d c z x hz hx (Option.some.inj (hji.symm.trans (ht i hti)))
  · obtain ⟨hfree, rfl⟩ | ⟨_, hheld, rfl⟩ := allocate_cases hal
    · have hst : (entry t i).state = .free := (lowestFree_eq.1 hfree).1
      exact ⟨h, by rw [hst]; nofun, fun d z hd =>
        h.unprobed (.inl (by simp [Entry.live, hst])) d z (hne hd)⟩
    · have hst : (entry s i).state = .held := reclaimable_held hheld
      have hf := h.after_freeEntry (by rw [hst]; nofun) (.inl (by simp [Entry.live, hst]))
      have hfree : (entry (freeEntry i s) i).state = .free := by simp [entry_freeEntry, Entry.freeAt]
      exact ⟨hf, by rw [hfree]; nofun, fun d z hd =>
        hf.unprobed (.inl (by simp [Entry.live, hfree])) d z (hne hd)⟩

/-- Resolution ends the excuse: the context is closed, or holds an offer, and probes no more. -/
theorem JoinPart.after_resolveTerms (h : JoinPart (some c) q s)
    (hxo : ∀ x, context s c = some x → x.stage.offer? = none) :
    JoinPart none q (resolveTerms c s) := by
  obtain ⟨hx, hs⟩ | ⟨r, _, hs⟩ | hs | ⟨x, cls, a, i, t, hx, _, ha, hj, _, hs⟩ :=
    resolveTerms_cases c s <;> rw [hs]
  · exact h.of_excused fun y hy => absurd (hx.symm.trans hy) nofun
  · exact h.after_closeRefused _ _
  · exact ((setPart_joinFrame _ s).part h).after_closeRefused _ _
  · obtain ⟨hp, hr, hu⟩ := h.after_joinEntry hx (hxo x hx)
      (fun j hj => (settledTarget_some hj).2.2.1) hj
    have hxt : context t c = some x := by
      rw [context, (joinEntry_frame hj).2.1]
      exact hx
    exact (send_joinFrame _ _ _).part
      (hp.after_offer (x := x) (o := ⟨i, _, a, _, _, _, _⟩) hxt (hxo x hx) rfl rfl hr hu rfl rfl rfl)

/-- A CHECK is sent by a context that has made no offer, to a live entry of its identity. -/
theorem JoinPart.after_sendCheck {tries a : Nat} (h : JoinPart (some c) q s)
    (hx : context s c = some x) (hxo : x.stage.offer? = none) (hyx : y.identity = x.identity)
    (hq : s.phase.phase ≠ .offline ∧ s.phase.phase ≠ .settling)
    (hp : ∃ i, y.target = some i ∧ (entry s i).live = true ∧ (entry s i).leased = true
      ∧ (entry s i).identity = some x.identity) :
    JoinPart none q (sendCheck c y tries a s) := by
  have hf : JoinFrame s { s with join.nextToken := s.join.nextToken + 1 } := JoinFrame.of_eq
  refine (handOver_joinFrame _ _ _ _).part ((hf.part h).after_taking ?_ rfl ?_ ?_ hq ?_)
  · intro z hz
    cases hx.symm.trans hz
    exact hxo
  · intro d z hd hz he
    exact hd (h.unique d c z x hz hx (he.trans hyx))
  · obtain ⟨_, _, _, hfree⟩ := h.deferrals
    intro d hd
    exact hyx ▸ hfree c x hx d hd
  · intro _
    exact hyx ▸ hp

theorem JoinPart.after_resolve (h : JoinPart none q s)
    (hxo : ∀ x, context s c = some x → x.stage.offer? = none)
    (hq : s.phase.phase ≠ .offline ∧ s.phase.phase ≠ .settling) :
    JoinPart none q (resolve c s) := by
  unfold resolve
  split
  case h_1 => exact h
  case h_2 x hx =>
    split
    case h_1 i a ha =>
      unfold probeTarget at ha
      split at ha
      case h_1 => exact nomatch ha
      case h_2 j hj =>
        split at ha
        case isFalse => exact nomatch ha
        case isTrue hl =>
          obtain ⟨b, _, hb⟩ := Option.map_eq_some_iff.1 ha
          cases hb
          obtain ⟨_, _, hid, hle⟩ := settledTarget_some hj
          simp only [Bool.and_eq_true] at hl
          exact (h.excuse (some c)).after_sendCheck hx (hxo x hx) rfl hq
            ⟨i, rfl, hl.1.2, hle, hid⟩
    case h_2 => exact (h.excuse (some c)).after_resolveTerms hxo

/-! ### The end of a binding (R12, R13) and the outcome GONE (R102) -/

/-- The probe against an entry is excused, of which there is one at most. -/
theorem JoinPart.excuse_probe (h : JoinPart none q s) (i : Index) (d : CtxNum) (z : Exchange)
    (hd : probing s i ≠ some d) (hz : context s d = some z) (hch : z.checking = true) :
    z.target ≠ some i := by
  intro ht
  refine hd (probing_only ⟨⟨z, hz, hch, ht⟩, fun e w hw hwc hwt => ?_⟩)
  obtain ⟨j, hj, _, _, hid⟩ := h.probes d z nofun hz hch
  obtain ⟨k, hk, _, _, hid'⟩ := h.probes e w nofun hw hwc
  cases ht.symm.trans hj
  cases hwt.symm.trans hk
  exact h.unique e d w z hw hz (Option.some.inj (hid'.symm.trans hid))

/-- A binding that ends leaves the probe against its entry, if any, to its outcome. -/
theorem JoinPart.after_ending {new : Entry} (h : JoinPart none q s) (causes : CauseSet)
    (hs : (entry s i).state ≠ .reserved) (hn : new.state ≠ .reserved) :
    JoinPart (probing s i) q (changeEntry i new causes s) :=
  (h.excuse _).after_changeEntry _ hs hn fun d z hd => h.excuse_probe i d z hd

theorem JoinPart.after_freeing (h : JoinPart none q s) (hs : (entry s i).state ≠ .reserved) :
    JoinPart (probing s i) q (freeEntry i s) := h.after_ending _ hs nofun

theorem JoinPart.after_holdEntry (h : JoinPart none q s) (cause : HeldCause)
    (hs : (entry s i).state ≠ .reserved) : JoinPart (probing s i) q (holdEntry cause i s) := by
  obtain ⟨_, ht⟩ | ⟨_, ht⟩ := holdEntry_cases cause i s <;> rw [ht]
  · exact h.after_freeing hs
  · exact h.after_ending _ hs nofun

theorem JoinPart.after_endBinding (h : JoinPart none q s) (cause : HeldCause)
    (hs : (entry s i).state ≠ .reserved) : JoinPart (probing s i) q (endBinding cause i s) := by
  unfold endBinding
  split
  · exact h.after_holdEntry cause hs
  · exact h.after_freeing hs

/-- Contexts of which the invariant sees what it saw are found to probe what they probed. -/
theorem JoinFrame.probing_eq {t : State} (h : JoinFrame s t) (i : Index) : probing t i = probing s i := by
  unfold probing
  congr 1
  funext c
  have hc := h.contexts c
  cases hx : context s c with
  | none => rw [h.context_none hx]
  | some x =>
    obtain ⟨y, hy, hv⟩ := h.symm_context_some hx
    obtain ⟨_, hch, ht, _⟩ := joinView_exchange hv
    simp [hy, hch, ht]

/-- The outcome GONE settles the probe that the end of the binding left (R102). -/
theorem JoinPart.after_probeGone (h : JoinPart (probing s i) q s) : JoinPart none q (probeGone i s) := by
  unfold probeGone
  split
  case h_1 hn =>
    rw [hn] at h
    exact h
  case h_2 c hc =>
    rw [hc] at h
    obtain ⟨x, hx, hch, _⟩ := probing_some hc
    refine h.after_resolveTerms fun y hy => ?_
    cases hx.symm.trans hy
    exact offer?_of_checking hch

end Resolution

end Sys2Proof.Machine
end

section
/-! What the commands of the host do to the join unit's invariant (spec/08, spec/10, spec/11). -/

namespace Sys2Proof.Machine

-- One lemma is elaborated after another, which keeps the check's memory low.
set_option Elab.async false

/-! ### Commands of which the join unit sees nothing -/

section Frames

variable {p : List Byte}

theorem filterPut_joinFrame (s : State) : JoinFrame s (filterPut p s) := by
  simp only [filterPut]
  split
  · exact finish_joinFrame _ _ s
  · split
    · exact finish_joinFrame _ _ s
    split
    · exact finish_joinFrame _ _ s
    · exact JoinFrame.then_finish JoinFrame.of_eq

theorem filterRemove_joinFrame (s : State) : JoinFrame s (filterRemove p s) := by
  simp only [filterRemove]
  split
  · exact finish_joinFrame _ _ s
  · exact JoinFrame.then_finish JoinFrame.of_eq

theorem filterRead_joinFrame (s : State) : JoinFrame s (filterRead p s) := by
  simp only [filterRead]
  split <;> exact finish_joinFrame _ _ s

theorem readDeferrals_joinFrame (s : State) : JoinFrame s (readDeferrals p s) := by
  simp only [readDeferrals]
  split <;> exact finish_joinFrame _ _ s

theorem configure_joinFrame (s : State) : JoinFrame s (configure p s) := by
  simp only [configure]
  split
  · exact finish_joinFrame _ _ s
  split
  · exact finish_joinFrame _ _ s
  split
  · exact finish_joinFrame _ _ s
  split
  · exact JoinFrame.then_finish JoinFrame.of_eq
  · exact JoinFrame.then_finish JoinFrame.of_eq

theorem readParameter_joinFrame (s : State) : JoinFrame s (readParameter p s) := by
  unfold readParameter
  split <;> exact finish_joinFrame _ _ s

theorem readEntry_joinFrame (s : State) : JoinFrame s (readEntry p s) := by
  unfold readEntry
  split <;> exact finish_joinFrame _ _ s

theorem findAddress_joinFrame (s : State) : JoinFrame s (findAddress p s) := by
  simp only [findAddress]
  split
  · exact finish_joinFrame _ _ s
  · split <;> exact finish_joinFrame _ _ s

theorem readContext_joinFrame (s : State) : JoinFrame s (readContext p s) := by
  simp only [readContext]
  split <;> exact finish_joinFrame _ _ s

theorem nextChange_joinFrame (s : State) : JoinFrame s (nextChange s) := by
  unfold nextChange
  split
  · exact JoinFrame.then_finish JoinFrame.of_eq
  · split
    · exact finish_joinFrame _ _ s
    · exact JoinFrame.then_finish JoinFrame.of_eq

theorem readCounters_joinFrame (s : State) : JoinFrame s (readCounters p s) := by
  unfold readCounters
  split
  · exact finish_joinFrame _ _ s
  · refine JoinFrame.then_finish ?_
    split
    · exact JoinFrame.of_eq
    · exact JoinFrame.refl s

theorem interruptSetup_joinFrame (s : State) : JoinFrame s (interruptSetup p s) := by
  unfold interruptSetup
  split
  · exact finish_joinFrame _ _ s
  · simp only []
    split
    · exact JoinFrame.then_finish JoinFrame.of_eq
    · exact finish_joinFrame _ _ s

theorem lookup_joinFrame (s : State) : JoinFrame s (lookup p s) := by
  unfold lookup
  split
  · exact finish_joinFrame _ _ s
  · refine ((waitFor_joinFrame .walk s).trans ?_).trans (arbitrate_joinFrame _)
    exact JoinFrame.of_eq

/-- An EDIT leaves an entry's state, holder and origin as they are (R175). -/
theorem applyEdit_joinFrame (x : EditFields) (s : State) : JoinFrame s (applyEdit x s) :=
  changeEntry_joinFrame _ rfl

theorem edit_joinFrame (s : State) : JoinFrame s (edit p s) := by
  unfold edit
  split
  · exact finish_joinFrame _ _ s
  case h_2 x hx =>
    simp only []
    split
    · exact finish_joinFrame _ _ s
    split
    · exact finish_joinFrame _ _ s
    split
    · exact finish_joinFrame _ _ s
    split
    · exact finish_joinFrame _ _ s
    split
    · exact ((applyEdit_joinFrame x s).trans (waitFor_joinFrame _ _)).trans
        (handOver_joinFrame _ _ _ _)
    · exact (applyEdit_joinFrame x s).then_finish

theorem confirmKeep_joinFrame (s : State) : JoinFrame s (confirmKeep p s) := by
  unfold confirmKeep
  split
  · exact finish_joinFrame _ _ s
  · simp only []
    split
    · exact finish_joinFrame _ _ s
    split
    · exact finish_joinFrame _ _ s
    split
    · exact finish_joinFrame _ _ s
    · refine JoinFrame.then_finish ?_
      exact changeEntry_joinFrame _ rfl

theorem fixReply_joinFrame (s : State) : JoinFrame s (fixReply s) := by
  unfold fixReply
  split <;> exact JoinFrame.of_eq

theorem takeStatus_joinFrame (s : State) : JoinFrame s (takeStatus s) := by
  unfold takeStatus
  exact JoinFrame.of_eq

theorem abortLookup_joinFrame (s : State) : JoinFrame s (abortLookup s) := by
  unfold abortLookup
  split
  · refine JoinFrame.trans ?_ (arbitrate_joinFrame _)
    exact JoinFrame.then_finish JoinFrame.of_eq
  · refine JoinFrame.trans ?_ (arbitrate_joinFrame _)
    exact JoinFrame.then_finish JoinFrame.of_eq
  · exact JoinFrame.refl s

theorem abort_joinFrame (s : State) : JoinFrame s (abort s) := by
  unfold abort
  split
  · exact JoinFrame.refl s
  · exact JoinFrame.refl s
  · split
    · exact abortLookup_joinFrame s
    · split
      · exact JoinFrame.then_finish JoinFrame.of_eq
      · exact JoinFrame.refl s
    · exact JoinFrame.refl s
    · exact JoinFrame.refl s

end Frames

/-! ### The end of a binding by the host (R177, R178) -/

section Ending

variable {p : List Byte} {q : Prop} {s : State} {i : Index}

theorem JoinPart.after_afterEnding {notify : Bool} {old : Entry} {reason : RevokeReason} {k : Option CtxNum}
    (h : JoinPart k q s) (hk : k = probing s i) : JoinPart none q (afterEnding i notify old reason s) := by
  have hframe {t : State} (hf : JoinFrame s t) : JoinPart none q (probeGone i t) := by
    refine JoinPart.after_probeGone ?_
    rw [hf.probing_eq, ← hk]
    exact hf.part h
  simp only [afterEnding]
  split
  · exact hframe ((waitFor_joinFrame _ s).trans (handOver_joinFrame _ _ _ _))
  · exact hframe (finish_joinFrame _ _ s)

/-- Which context probes an entry does not depend on the table. -/
theorem probing_of_join {t : State} (h : t.join = s.join) (i : Index) : probing t i = probing s i := by
  simp [probing, context, h]

theorem revoke_joinSound (h : JoinSound s) : JoinSound (revoke p s) := by
  unfold revoke
  split
  · exact (finish_joinFrame _ _ s).sound h
  case h_2 x hx =>
    simp only []
    split
    · exact (finish_joinFrame _ _ s).sound h
    split
    · exact (finish_joinFrame _ _ s).sound h
    split
    · exact (finish_joinFrame _ _ s).sound h
    case isFalse hlive =>
      have hr := (live_states (not_not.1 hlive)).2.2
      refine joinSound_iff.2 (JoinPart.after_afterEnding (k := probing s x.index) ?_ ?_)
      · split
        · exact (joinSound_iff.1 h).after_freeing hr
        · exact (joinSound_iff.1 h).after_endBinding _ hr
      · split <;> exact (probing_of_join (by simp) _).symm

theorem confirmEvict_joinSound (h : JoinSound s) : JoinSound (confirmEvict p s) := by
  unfold confirmEvict
  split
  · exact (finish_joinFrame _ _ s).sound h
  case h_2 x hx =>
    simp only []
    split
    · exact (finish_joinFrame _ _ s).sound h
    split
    · exact (finish_joinFrame _ _ s).sound h
    split
    · exact (finish_joinFrame _ _ s).sound h
    split
    · exact (finish_joinFrame _ _ s).sound h
    case isFalse hc =>
      have hr := (live_states (confirmable_iff.1 (not_not.1 hc)).1).2.2
      exact joinSound_iff.2 (((joinSound_iff.1 h).after_endBinding _ hr).after_afterEnding
        (probing_of_join (by simp) _).symm)

end Ending

/-! ### New entries (R11) -/

section Entries

variable {p : List Byte} {s t : State} {i : Index}

/-- An entry allocated is FREE, in a state that is still sound. -/
theorem JoinSound.allocated (h : JoinSound s) (hal : allocate s = some (i, t)) :
    JoinSound t ∧ (entry t i).state = .free := by
  obtain ⟨hfree, rfl⟩ | ⟨_, hheld, rfl⟩ := allocate_cases hal
  · exact ⟨h, (lowestFree_eq.1 hfree).1⟩
  · have hst := reclaimable_held hheld
    exact ⟨joinSound_iff.2 ((joinSound_iff.1 h).after_freeEntry (by rw [hst]; nofun)
      (.inl (by simp [Entry.live, hst]))), by simp [entry_freeEntry, Entry.freeAt]⟩

/-- A binding made in a FREE entry concerns no context. -/
theorem JoinSound.after_creating {new : Entry} (h : JoinSound s) (causes : CauseSet)
    (hi : (entry s i).state = .free) (hn : new.state ≠ .reserved) :
    JoinSound (changeEntry i new causes s) :=
  joinSound_iff.2 ((joinSound_iff.1 h).after_changeEntry _ (by rw [hi]; nofun) hn
    ((joinSound_iff.1 h).unprobed (.inl (by simp [Entry.live, hi]))))

theorem addStatic_joinSound (h : JoinSound s) : JoinSound (addStatic p s) := by
  unfold addStatic
  split
  · exact (finish_joinFrame _ _ s).sound h
  · split
    · exact (finish_joinFrame _ _ s).sound h
    split
    · exact (finish_joinFrame _ _ s).sound h
    split
    · exact ((setPart_joinFrame _ s).then_finish).sound h
    case h_2 hal =>
      obtain ⟨ht, hfree⟩ := h.allocated hal
      exact (finish_joinFrame _ _ _).sound (ht.after_creating _ hfree nofun)

end Entries

/-! ### Phases (spec/08) -/

section Phases

variable {s : State}

/-- A phase is entered that may have contexts, or while there is none. -/
theorem JoinPart.after_enterPhase {q : Prop} {r : Phase} (h : JoinPart none q s) (ho : r ≠ .offline)
    (hc : r = .settling → ∀ c, context s c = none) : JoinPart none True (enterPhase r s) :=
  { h with
    quiet := fun _ => ⟨fun hr => hc (hr.resolve_left ho), fun hr => absurd hr ho⟩ }

theorem JoinSound.no_contexts (h : JoinSound s)
    (hp : s.phase.phase = .offline ∨ s.phase.phase = .settling) (c : CtxNum) : context s c = none := by
  obtain ⟨_, _, _, _, _, hcontexts, _⟩ := h
  exact hcontexts hp c

theorem startPart_joinSound (h : JoinSound s) (hp : s.phase.phase = .offline) :
    JoinSound (startPart s) := by
  have hstart (r : Phase) (p : PhaseControl) (l : LeaseUnit) (ho : r ≠ .offline)
      (hphase : p.phase = s.phase.phase) :
      JoinSound (enterPhase r { s with phase := p, lease := l }) := by
    have hf : JoinFrame s { s with phase := p, lease := l } :=
      JoinFrame.of_eq rfl rfl rfl hphase id
    exact joinSound_iff.2 ((hf.part (joinSound_iff.1 h)).after_enterPhase ho
      fun _ => h.no_contexts (.inl hp))
  simp only [startPart]
  split
  · exact hstart .active s.phase _ nofun rfl
  · exact hstart .settling _ _ nofun rfl

theorem enable_joinSound (h : JoinSound s) : JoinSound (enable s) := by
  unfold enable
  split
  case isTrue hp => exact (finish_joinFrame _ _ _).sound (startPart_joinSound h hp)
  case isFalse => exact (finish_joinFrame _ _ s).sound h

theorem JoinPart.after_closeCollecting {q : Prop} (h : JoinPart none q s) :
    JoinPart none q (closeCollecting s) := by
  have hstep (c : CtxNum) (s : State) (h : JoinPart none q s) :
      JoinPart none q (if collectingNow s c then closeUnasked c .suspended s else s) := by
    split
    · exact (h.excuse (some c)).after_closeUnasked _
    · exact h
  unfold closeCollecting
  induction List.finRange 8 generalizing s with
  | nil => exact h
  | cons c l ih => exact ih (hstep c s h)

theorem suspend_joinSound (h : JoinSound s) : JoinSound (suspend s) := by
  have hp : JoinPart none True (enterPhase .suspended s) :=
    (joinSound_iff.1 h).after_enterPhase nofun nofun
  unfold suspend
  split
  · exact (finish_joinFrame _ _ _).sound (joinSound_iff.2 hp.after_closeCollecting)
  · exact (finish_joinFrame _ _ s).sound h

theorem resume_joinSound (h : JoinSound s) : JoinSound (resume s) := by
  have hp : JoinPart none True (enterPhase .active s) :=
    (joinSound_iff.1 h).after_enterPhase nofun nofun
  unfold resume
  split
  · exact (finish_joinFrame _ _ _).sound (joinSound_iff.2 hp)
  · exact (finish_joinFrame _ _ s).sound h

theorem settleExpiry_joinSound {t : State} (h : JoinSound s) (ht : execSettleExpiry s = .next t) :
    JoinSound t := by
  cases ht
  split
  · have hf : JoinFrame s { s with phase.settle := none, phase.settleOwed := false } := JoinFrame.of_eq
    exact joinSound_iff.2 ((hf.part (joinSound_iff.1 h)).after_enterPhase nofun nofun)
  · exact h

end Phases

/-! ### Teardown (R84, R134, R142, R183) -/

section Teardown

variable {s : State} {q : Prop}

/-- Without contexts and with no request buffered every phase is quiet. -/
theorem JoinPart.quiet_now (h : JoinPart none q s) (hc : ∀ c, context s c = none)
    (hi : s.port.inbound = []) : JoinPart none True s :=
  { h with quiet := fun _ => ⟨fun _ => hc, fun _ => hi⟩ }

theorem JoinPart.without_deferrals (h : JoinPart none q s) :
    JoinPart none q { s with admission.deferrals := [] } :=
  { h with deferrals := ⟨Nat.zero_le _, .nil, nofun, fun _ _ _ => nofun⟩ }

theorem purgeLookups_joinFrame (s : State) : JoinFrame s (purgeLookups s) := by
  simp only [purgeLookups]
  split
  · refine JoinFrame.trans ?_ (arbitrate_joinFrame _)
    exact JoinFrame.of_eq
  · exact JoinFrame.of_eq
  · exact JoinFrame.of_eq

theorem purgePort_joinFrame (s : State) : JoinFrame s (purgePort s) := by
  unfold purgePort
  split
  · refine JoinFrame.trans ?_ (reportAll_joinFrame _ _ _)
    exact JoinFrame.of_eq
  · refine JoinFrame.trans ?_ (reportAll_joinFrame _ _ _)
    exact JoinFrame.of_eq

theorem purgePort_inbound (s : State) : (purgePort s).port.inbound = [] := by
  unfold purgePort
  split <;> simp

/-- A teardown leaves no context and no request, so that every phase may follow. -/
theorem JoinPart.after_tearDown (h : JoinPart none q s) : JoinPart none True (tearDown s) := by
  have hclosed : JoinPart none q (closeAll s) := h.after_closing_each
  have hidle (c : CtxNum) : context (closeAll s) c = none := context_closeAll c s
  unfold tearDown
  generalize closeAll s = u at hclosed hidle ⊢
  have hf := (purgeLookups_joinFrame { u with admission.deferrals := [] }).trans (purgePort_joinFrame _)
  exact (hf.part hclosed.without_deferrals).quiet_now (fun c => hf.context_none (hidle c))
    (purgePort_inbound _)

theorem finishTearDown_joinFrame (data : State → List Byte) (s : State) :
    JoinFrame s (finishTearDown data s) := by
  unfold finishTearDown
  split
  · exact waitFor_joinFrame _ s
  · exact finish_joinFrame _ _ s

theorem disable_joinSound (h : JoinSound s) : JoinSound (disable s) := by
  unfold disable
  split
  · exact (finish_joinFrame _ _ s).sound h
  · obtain ⟨hu, ho, hr, hp, hd, _⟩ := joinSound_iff.1 h
    have hstopped : JoinPart none False (stopClock (enterPhase .offline
        { s with phase.settle := none, phase.settleOwed := false })) :=
      ⟨hu, ho, hr, hp, hd, False.elim⟩
    exact joinSound_iff.2 ((finishTearDown_joinFrame _ _).part hstopped.after_tearDown)

theorem portRestart_joinSound (h : JoinSound s) :
    JoinSound (finishTearDown (fun _ => []) (tearDown s)) :=
  joinSound_iff.2 ((finishTearDown_joinFrame _ _).part (joinSound_iff.1 h).after_tearDown)

/-- Without contexts nothing is RESERVED and nothing probed. -/
theorem joinPart_without_contexts (hc : ∀ c, context s c = none)
    (hr : ∀ i, (entry s i).state ≠ .reserved) (hd : s.admission.deferrals = [])
    (hi : s.phase.phase = .offline → s.port.inbound = []) : JoinSound s :=
  ⟨fun c _ _ _ hx => absurd ((hc c).symm.trans hx) nofun,
    fun c _ _ hx => absurd ((hc c).symm.trans hx) nofun, fun i hres => absurd hres (hr i),
    fun c _ hx => absurd ((hc c).symm.trans hx) nofun,
    ⟨by simp [hd], by simp [hd], by simp [hd], by simp [hd]⟩, fun _ => hc, hi⟩

theorem flush_joinSound (h : JoinSound s) : JoinSound (flush s) := by
  unfold flush
  split
  case isTrue => exact (finish_joinFrame _ _ s).sound h
  case isFalse hp =>
    refine (finish_joinFrame _ _ _).sound ?_
    have hcontexts := h.no_contexts (.inl (not_not.1 hp))
    obtain ⟨_, _, hreserved, _, _, _, hinbound⟩ := h
    obtain ⟨table, causes, hframe⟩ := freeAll_frame { s with admission.deferrals := [] }
    have hjoin : (freeAll { s with admission.deferrals := [] }).join = s.join := by rw [hframe]
    refine joinPart_without_contexts (fun c => ?_) (fun i => ?_) (by rw [hframe]) fun _ => ?_
    · rw [context, hjoin]
      exact hcontexts c
    · cases ho : (entry s i).occupied with
      | true =>
        rw [(freeAll_releasedAt (s := { s with admission.deferrals := [] }) ho).state_free]
        nofun
      | false =>
        have hfree : (entry s i).state = .free := by simpa [Entry.occupied] using ho
        rw [(freeAll_keptAt (s := { s with admission.deferrals := [] }) hfree).1]
        exact fun hres => absurd (hfree.symm.trans hres) nofun
    · rw [hframe]
      exact hinbound (not_not.1 hp)

end Teardown

/-! ### Taking a command or a transaction -/

theorem takeCommand_joinSound {code : Byte} {suits : Nat → Bool} {body : List Byte → State → State}
    {f : CommandFrame} {s : State} (h : JoinSound s)
    (hb : ∀ u, JoinSound u → JoinSound (body f.params u)) :
    JoinSound (takeCommand code suits f body s) := by
  obtain ⟨_, hs⟩ | ⟨_, _, _, hs⟩ | ⟨_, _, _, hs⟩ | ⟨_, _, hm, hs⟩ :=
    takeCommand_cases code suits f body s <;> rw [hs]
  · exact JoinFrame.sound JoinFrame.of_eq h
  · exact JoinFrame.sound JoinFrame.of_eq h
  · exact ((accept_joinFrame f s).then_finish).sound h
  · exact hb _ ((accept_joinFrame f s).sound h)

theorem takeTransaction_joinSound {own : State → State} {s : State} (h : JoinSound s)
    (ho : JoinSound (own s)) : JoinSound (takeTransaction own s) := by
  obtain ⟨_, hs⟩ | ⟨_, hs⟩ := takeTransaction_cases own s <;> rw [hs]
  · exact h
  · exact ho

end Sys2Proof.Machine
end

section
/-! What the requests of the bus, the observer and the events do to the join unit's invariant, and that
every step keeps it (R58, R61). -/

namespace Sys2Proof.Machine

-- One lemma is elaborated after another, which keeps the check's memory low.
set_option Elab.async false

/-! ### The deferral list (R54, R58) -/

section Deferrals

variable {q : Prop} {s : State} {x : Identity}

theorem identity_deferHoldoff {l : List Deferral} {d : Deferral} (h : d ∈ deferHoldoff x l) :
    d.identity = x ∨ d ∈ l := by
  obtain rfl | hd := List.mem_cons.1 (List.mem_of_mem_take h)
  · exact .inl rfl
  · exact .inr (List.mem_filter.1 hd).1

theorem deferHoldoff_sound {l : List Deferral} (hn : (l.map Deferral.identity).Nodup)
    (hc : ∀ d ∈ l, 1 ≤ d.count ∧ d.count ≤ 255) :
    (deferHoldoff x l).length ≤ Config.deferralRecords
      ∧ ((deferHoldoff x l).map Deferral.identity).Nodup
      ∧ ∀ d ∈ deferHoldoff x l, 1 ≤ d.count ∧ d.count ≤ 255 := by
  refine ⟨List.length_take_le _ _, ?_, fun d hd => ?_⟩
  · refine List.Nodup.sublist ((List.take_sublist _ _).map _) (List.nodup_cons.2 ⟨fun hx => ?_, ?_⟩)
    · obtain ⟨d, hd, he⟩ := List.mem_map.1 hx
      have hne := (List.mem_filter.1 hd).2
      simp [he] at hne
    · exact hn.sublist (List.filter_sublist.map _)
  · obtain rfl | hd := List.mem_cons.1 (List.mem_of_mem_take hd)
    · simp only []
      omega
    · exact hc d (List.mem_filter.1 hd).1

/-- A HOLDOFF goes to an identity that holds no context. -/
theorem JoinPart.after_holdoff (h : JoinPart none q s) (hx : NoContext s x) :
    JoinPart none q (holdoff x s) := by
  refine ((count_joinFrame _ _).trans (send_joinFrame _ _ _)).part ?_
  obtain ⟨_, hn, hc, hfree⟩ := h.deferrals
  obtain ⟨hlen, hn', hc'⟩ := deferHoldoff_sound (x := x) hn hc
  refine { h with deferrals := ⟨hlen, hn', hc', fun c y hy d hd => ?_⟩ }
  obtain he | hd := identity_deferHoldoff hd
  · rw [he]
    exact (hx c y hy).symm
  · exact hfree c y hy d hd

end Deferrals

/-! ### JOIN and EXTEND (spec/04) -/

section Joining

variable {s : State} {c : CtxNum}

/-- A phase in which contexts are taken. -/
def Joining (s : State) : Prop := s.phase.phase ≠ .offline ∧ s.phase.phase ≠ .settling

theorem takeContext_joinSound {j : JoinFields} {caps : Caps} {target : Option Index} {probe : Bool}
    (h : JoinSound s) (hp : Joining s) (hj : NoContext s j.identity) (hc : context s c = none) :
    JoinSound (takeContext c j caps target probe s) := by
  have hs := joinSound_iff.1 h
  have hdropped : JoinPart (some c) True
      { s with admission.deferrals := dropDeferral j.identity s.admission.deferrals } := by
    obtain ⟨hlen, hn, hcount, hfree⟩ := hs.deferrals
    refine { hs.excuse (some c) with
      deferrals := ⟨(List.length_filter_le _ _).trans hlen, hn.sublist (List.filter_sublist.map _),
        fun d hd => hcount d (List.mem_filter.1 hd).1,
        fun e x hx d hd => hfree e x hx d (List.mem_filter.1 hd).1⟩ }
  have htaken := hdropped.after_taking
    (y := newExchange j caps target probe (.collecting (timerEnd s.phase.params.pageTimeout s)))
    (fun x hx => absurd (hc.symm.trans hx) nofun) rfl (fun d x _ hx => hj d x hx)
    (fun d hd => bne_iff_ne.1 (List.mem_filter.1 hd).2) hp nofun
  have hcounted := (count_joinFrame .joins _).part htaken
  simp only [takeContext]
  split
  · exact joinSound_iff.2 ((send_joinFrame _ _ _).part hcounted)
  · refine joinSound_iff.2 (hcounted.after_resolve (fun x hx => ?_) (by simpa using And.intro hp.1 hp.2))
    obtain rfl : newExchange j caps target probe _ = x := by simpa [context] using hx
    rfl

theorem needContext_joinSound {j : JoinFields} {caps : Caps} {target : Option Index} {probe : Bool}
    (h : JoinSound s) (hp : Joining s) (hj : NoContext s j.identity) :
    JoinSound (needContext j caps target probe s) := by
  unfold needContext
  split
  · exact (refuse_joinFrame _ _ _ _ s).sound h
  · split
    · exact joinSound_iff.2 ((joinSound_iff.1 h).after_holdoff hj)
    case h_2 c hc =>
      exact takeContext_joinSound h hp hj (by simpa using (lowestIdle_eq.1 hc).1)

theorem grantExisting_joinFrame {x : Identity} {i : Index} {requested : Nat}
    (hl : (entry s i).live = true) : JoinFrame s (grantExisting x i requested s) :=
  ((renewEntry_joinFrame hl _).trans (count_joinFrame _ _)).trans (send_joinFrame _ _ _)

theorem joinMeetsEntry_joinSound {j : JoinFields} {caps : Caps} (h : JoinSound s) (hp : Joining s)
    (hj : NoContext s j.identity) : JoinSound (joinMeetsEntry j caps s) := by
  unfold joinMeetsEntry
  split
  · exact needContext_joinSound h hp hj
  · simp only []
    split
    case isTrue hl =>
      split
      · exact (refuse_joinFrame _ _ _ _ s).sound h
      split
      · split
        · exact needContext_joinSound h hp hj
        · exact (grantExisting_joinFrame hl).sound h
      · exact needContext_joinSound h hp hj
    case isFalse => exact needContext_joinSound h hp hj

theorem admitJoin_joinSound {j : JoinFields} (h : JoinSound s) (hp : Joining s)
    (hj : NoContext s j.identity) : JoinSound (admitJoin j s) := by
  unfold admitJoin
  split
  · exact ((count_joinFrame _ s).trans (send_joinFrame _ _ _)).sound h
  · split
    · exact (refuse_joinFrame _ _ _ _ s).sound h
    · exact joinMeetsEntry_joinSound h hp hj

theorem repeatJoin_joinFrame (x : Exchange) (s : State) : JoinFrame s (repeatJoin x s) := by
  unfold repeatJoin
  split
  · exact send_joinFrame _ _ s
  · exact JoinFrame.refl s
  · exact send_joinFrame _ _ s

/-- Once the context of an identity is closed, no context holds it. -/
theorem JoinSound.noContext_closed {x : Exchange} (h : JoinSound s) (hx : context s c = some x) :
    NoContext (closeContext c s) x.identity := by
  intro d y hy he
  rw [context_closeContext, ite_eq_iff] at hy
  obtain ⟨_, hy⟩ | ⟨hdc, hy⟩ := hy
  · exact nomatch hy
  · exact hdc (h.1 d c y x hy hx he)

theorem contextOf_eq_none {x : Identity} : contextOf s x = none ↔ NoContext s x := by
  refine ⟨fun h c y hy he => ?_, contextOf_none⟩
  rw [contextOf, List.find?_eq_none] at h
  exact h c (List.mem_finRange c) (by simp [hy, he])

theorem takeJoin_joinSound {r : Request} (h : JoinSound s) (hp : s.phase.phase ≠ .offline) :
    JoinSound (takeJoin r s) := by
  simp only [takeJoin]
  split
  · exact (refuse_joinFrame _ _ _ _ s).sound h
  split
  case isTrue hset =>
    exact joinSound_iff.2 ((joinSound_iff.1 h).after_holdoff fun c x hx =>
      absurd ((h.no_contexts (.inr hset) c).symm.trans hx) nofun)
  case isFalse hset =>
    split
    · exact (refuse_joinFrame _ _ _ _ s).sound h
    split
    case h_1 hn => exact admitJoin_joinSound h ⟨hp, hset⟩ (contextOf_eq_none.1 hn)
    case h_2 c hc =>
      obtain ⟨y, hy, hid⟩ := contextOf_some hc
      split
      · exact h
      case h_2 x hx =>
        cases hy.symm.trans hx
        split
        · exact (repeatJoin_joinFrame _ s).sound h
        · refine admitJoin_joinSound
            (joinSound_iff.2 ((joinSound_iff.1 h).excuse (some c)).after_closeContext)
            (by simpa [Joining] using And.intro hp hset) ?_
          exact hid ▸ h.noContext_closed hy

theorem JoinSound.closeRefused (h : JoinSound s) (c : CtxNum) (k : ReqKind) (r : Reason) :
    JoinSound (closeRefused c k r s) :=
  joinSound_iff.2 (((joinSound_iff.1 h).excuse (some c)).after_closeRefused k r)

/-- A context that exists is in a phase that has contexts. -/
theorem JoinSound.joining {x : Exchange} (h : JoinSound s) (hx : context s c = some x) : Joining s :=
  ⟨fun hp => absurd ((h.no_contexts (.inl hp) c).symm.trans hx) nofun,
    fun hp => absurd ((h.no_contexts (.inr hp) c).symm.trans hx) nofun⟩

/-- A context without an offer is given another exchange of its identity that is COLLECTING. -/
theorem JoinSound.after_collecting {x y : Exchange} {d : Nat} (h : JoinSound s)
    (hx : context s c = some x) (hxo : x.stage.offer? = none) (hyx : y.identity = x.identity)
    (hy : y.stage = .collecting d) : JoinSound (setContext c (some y) s) := by
  have hs := joinSound_iff.1 h
  obtain ⟨_, _, _, hfree⟩ := hs.deferrals
  refine joinSound_iff.2 ((hs.excuse (some c)).after_taking (fun z hz => ?_) (by rw [hy]; rfl)
    (fun d z hd hz he => hd (hs.unique d c z x hz hx (he.trans hyx)))
    (fun d hd => hyx ▸ hfree c x hx d hd) (h.joining hx) fun hch => ?_)
  · cases hx.symm.trans hz
    exact hxo
  · simp [Exchange.checking, hy] at hch

theorem newPage_joinSound {x : Exchange} {turn : Nat} {more : Bool} {page : Option Page}
    (h : JoinSound s) (hx : context s c = some x) (hxo : x.stage.offer? = none) :
    JoinSound (newPage c x turn more page s) := by
  unfold newPage
  split
  · exact h.closeRefused _ _ _
  case h_2 g =>
    split
    · exact h.closeRefused _ _ _
    · have hpage : (x.takePage g).identity = x.identity := by cases g <;> rfl
      have ht := (send_joinFrame Config.anonymous (.noted x.identity turn) _).sound
        (h.after_collecting (d := timerEnd s.phase.params.pageTimeout s)
          (y := { x.takePage g with
            pagesTaken := x.pagesTaken + 1, lastTurn := turn,
            stage := .collecting (timerEnd s.phase.params.pageTimeout s) }) hx hxo hpage rfl)
      simp only []
      split
      · exact ht
      · refine joinSound_iff.2 ((joinSound_iff.1 ht).after_resolve (fun z hz => ?_) ?_)
        · simp only [context, send_join, setContext_join, Fin.getElem_fin, Vector.getElem_set_self,
            Option.some.injEq] at hz
          rw [← hz]
          rfl
        · simpa [Joining] using h.joining hx

theorem extendContext_joinSound {x : Exchange} {p : List Byte} (h : JoinSound s)
    (hx : context s c = some x) : JoinSound (extendContext c x p s) := by
  simp only [extendContext]
  split
  case h_1 d hd =>
    split
    · exact newPage_joinSound h hx (by rw [hd]; rfl)
    split
    · exact (send_joinFrame _ _ s).sound h
    · exact h.closeRefused _ _ _
  case h_2 =>
    split
    · exact h
    · exact h.closeRefused _ _ _
  case h_3 =>
    split
    · exact (send_joinFrame _ _ s).sound h
    · exact h.closeRefused _ _ _

theorem takeExtend_joinSound {r : Request} (h : JoinSound s) : JoinSound (takeExtend r s) := by
  simp only [takeExtend]
  split
  · exact (refuse_joinFrame _ _ _ _ s).sound h
  split
  · exact (refuse_joinFrame _ _ _ _ s).sound h
  split
  · exact (refuse_joinFrame _ _ _ _ s).sound h
  · split
    · exact h
    case h_2 hx => exact extendContext_joinSound h hx

end Joining

end Sys2Proof.Machine
end

section
/-! What AGREE, REPLY, KEEP, LEAVE, the observer, the receiver and the events of the part's own timers do
to the join unit's invariant, and that every step keeps it (R58, R61). -/

namespace Sys2Proof.Machine

-- One lemma is elaborated after another, which keeps the check's memory low.
set_option Elab.async false

/-! ### AGREE (R80, R81) -/

section Agree

variable {s : State} {c : CtxNum}

/-- A bind takes the RESERVED entry and its OFFERED context together (R10). -/
theorem bindOffer_joinSound {x : Exchange} {o : Offer} (h : JoinSound s) (hx : context s c = some x)
    (ho : x.stage = .offered o) : JoinSound (bindOffer c x o s) := by
  obtain ⟨hr, _⟩ := (joinSound_iff.1 h).offers c x o hx ho
  simp only [bindOffer, if_pos hr]
  exact ((count_joinFrame _ _).trans (send_joinFrame _ _ _)).sound (joinSound_iff.2
    (((joinSound_iff.1 h).excuse (some c)).after_offer_ends hx ho nofun))

theorem judgeAgree_joinSound {x : Exchange} {o : Offer} {p : List Byte} (h : JoinSound s)
    (hx : context s c = some x) (ho : x.stage = .offered o) : JoinSound (judgeAgree c x o p s) := by
  unfold judgeAgree
  split
  · exact (send_joinFrame _ _ _).sound
      (joinSound_iff.2 ((joinSound_iff.1 h).excuse (some c)).after_closeContext)
  split
  · exact h.closeRefused _ _ _
  split
  · exact h.closeRefused _ _ _
  · exact bindOffer_joinSound h hx ho

theorem lateAgree_joinFrame (x : Identity) (p : List Byte) (s : State) :
    JoinFrame s (lateAgree x p s) := by
  unfold lateAgree
  split
  · exact refuse_joinFrame _ _ _ _ s
  · simp only []
    split
    · exact send_joinFrame _ _ s
    · exact refuse_joinFrame _ _ _ _ s

theorem takeAgree_joinSound {r : Request} (h : JoinSound s) : JoinSound (takeAgree r s) := by
  simp only [takeAgree]
  split
  · exact (refuse_joinFrame _ _ _ _ s).sound h
  split
  · exact (refuse_joinFrame _ _ _ _ s).sound h
  split
  · exact (lateAgree_joinFrame _ _ s).sound h
  · split
    · exact h
    case h_2 hx =>
      split
      case h_1 o ho => exact judgeAgree_joinSound h hx ho
      · exact h.closeRefused _ _ _
      · exact h.closeRefused _ _ _

end Agree

/-! ### REPLY (R97 to R100) -/

section Reply

variable {s : State} {c : CtxNum} {x : Exchange}

theorem JoinSound.after_resolveTerms (h : JoinSound s) (hx : context s c = some x)
    (hch : x.checking = true) : JoinSound (resolveTerms c s) :=
  joinSound_iff.2 (((joinSound_iff.1 h).excuse (some c)).after_resolveTerms fun y hy => by
    cases hx.symm.trans hy
    exact offer?_of_checking hch)

theorem rememberHolder_joinFrame (i : Index) (r : Option Superseded) (s : State) :
    JoinFrame s (rememberHolder i r s) := by
  have hentry (j : Index) : entry (rememberHolder i r s) j =
      if j = i then { entry s i with superseded := r } else entry s j :=
    entry_withEntry i j _ s
  refine JoinFrame.of_entries (fun j => ?_) rfl rfl rfl id
  rw [hentry]
  split
  case isTrue hj => rw [hj]; rfl
  case isFalse => rfl

theorem noteLateReply_joinFrame (i : Index) (p : List Byte) (s : State) :
    JoinFrame s (noteLateReply i p s) := by
  simp only [noteLateReply]
  split
  · exact rememberHolder_joinFrame _ _ s
  · exact JoinFrame.refl s

theorem judgeReply_joinSound {i : Index} {p : List Byte} (h : JoinSound s) (hx : context s c = some x)
    (hch : x.checking = true) : JoinSound (judgeReply i c x p s) := by
  have hduplicate : JoinSound (probeDuplicate i c s) := joinSound_iff.2
    (((addDuplicate_joinFrame i s).part (joinSound_iff.1 h)).excuse (some c)).after_closeDuplicate
  unfold judgeReply
  split
  · have hcollided := (addCollision_joinFrame i s).sound h
    have hx' : context (addCollision i s) c = some x := by simpa [context] using hx
    exact joinSound_iff.2 (((joinSound_iff.1 hcollided).excuse (some c)).after_closeContext.after_holdoff
      (hcollided.noContext_closed hx'))
  split
  · exact hduplicate
  split
  · exact h.after_resolveTerms hx hch
  · exact hduplicate

theorem takeReply_joinSound {r : Request} (h : JoinSound s) : JoinSound (takeReply r s) := by
  unfold takeReply
  split
  · exact (count_joinFrame _ s).sound h
  · split
    · exact ((noteLateReply_joinFrame _ _ s).trans (count_joinFrame _ _)).sound h
    case h_2 c hc =>
      obtain ⟨x, hx, hch, _⟩ := probing_some hc
      simp only [hx]
      exact judgeReply_joinSound h hx hch

end Reply

/-! ### KEEP and LEAVE (spec/02, spec/08.2) -/

section Renewal

variable {s : State} {i : Index} {k : KeepFields} {source : Nat}

theorem forgetLoss_joinFrame (k : KeepFields) (s : State) : JoinFrame s (forgetLoss k s) := by
  refine JoinFrame.of_entries (fun i => ?_) rfl rfl rfl id
  rw [entry_forgetLoss]
  obtain h | h := forgetting_cases k.identity k.incarnation (entry s i) <;> rw [h]
  rfl

theorem adopt_joinSound (h : JoinSound s) : JoinSound (adopt k source s) := by
  unfold adopt
  split
  · exact (refuse_joinFrame _ _ _ _ s).sound h
  · split
    · exact (refuse_joinFrame _ _ _ _ s).sound h
    · split
      · exact (refuse_joinFrame _ _ _ _ s).sound h
      · split
        · exact ((setPart_joinFrame _ s).then_refuse).sound h
        case h_2 hal =>
          obtain ⟨ht, hfree⟩ := h.allocated hal
          exact ((count_joinFrame _ _).trans (send_joinFrame _ _ _)).sound
            (ht.after_creating _ hfree nofun)

theorem keepRenews_joinFrame (hl : (entry s i).live = true) : JoinFrame s (keepRenews i k source s) :=
  ((renewEntry_joinFrame hl _).trans (count_joinFrame _ _)).trans (send_joinFrame _ _ _)

theorem keepDuplicates_joinSound {c : CtxNum} (h : JoinSound s) (hl : (entry s i).live = true) :
    JoinSound (keepDuplicates i c k source s) := by
  refine joinSound_iff.2 (JoinPart.after_closeDuplicate (JoinPart.excuse ?_ (some c)))
  refine ((count_joinFrame _ _).trans (send_joinFrame _ _ _)).part (JoinFrame.part ?_ (joinSound_iff.1 h))
  have hview := renewed_joinView hl (clampLease s.phase.params k.lease none)
  exact changeEntry_joinFrame _ (Eq.trans rfl hview)

theorem keepRejoins_joinSound {late : Bool} (h : JoinSound s) :
    JoinSound (keepRejoins i k late source s) := by
  unfold keepRejoins
  split
  · exact (refuse_joinFrame _ _ _ _ s).sound h
  case h_2 c hc =>
    have ht := (refuse_joinFrame source k.identity .keep .rejoin s).sound h
    obtain ⟨x, hx, hch, _⟩ := probing_some hc
    have hx' : context (refuse source k.identity .keep .rejoin s) c = some x := by
      simpa [context, refuse_eq] using hx
    simp only []
    split
    · exact ht.after_resolveTerms hx' hch
    · exact ht

theorem keepLive_joinSound {late : Bool} (h : JoinSound s) (hl : (entry s i).live = true) :
    JoinSound (keepLive i k late source s) := by
  simp only [keepLive]
  split
  · exact ((addCollision_joinFrame i s).then_refuse).sound h
  split
  · exact ((count_joinFrame _ s).trans (send_joinFrame _ _ _)).sound h
  split
  · exact keepRejoins_joinSound h
  split
  · exact (keepRenews_joinFrame hl).sound h
  · exact keepDuplicates_joinSound h hl

theorem takeKeep_joinSound {r : Request} (h : JoinSound s) : JoinSound (takeKeep r s) := by
  have ht := (forgetLoss_joinFrame (readKeep r.payload) s).sound h
  have hlive {i : Index} (hi : (entry s i).live = true) :
      (entry (forgetLoss (readKeep r.payload) s) i).live = true := by
    rw [entry_forgetLoss, live_forgetting]
    exact hi
  simp only [takeKeep]
  split
  · split
    · exact adopt_joinSound ht
    · exact (refuse_joinFrame _ _ _ _ _).sound ht
  · split
    case h_1 hs => exact keepLive_joinSound ht (hlive (by simp [Entry.live, hs]))
    case h_2 hs => exact keepLive_joinSound ht (hlive (by simp [Entry.live, hs]))
    · split <;> exact (refuse_joinFrame _ _ _ _ _).sound ht
    · exact (refuse_joinFrame _ _ _ _ _).sound ht
    · exact ht

theorem takeLeave_joinSound {r : Request} (h : JoinSound s) : JoinSound (takeLeave r s) := by
  simp only [takeLeave]
  split
  · exact (refuse_joinFrame _ _ _ _ s).sound h
  case h_2 i hi =>
    split
    case isTrue hl =>
      have hheld := (joinSound_iff.1 h).after_holdEntry .left (live_states hl).2.2
      have hf := send_joinFrame r.source (.closed (payloadIdentity r.payload)) (holdEntry .left i s)
      refine joinSound_iff.2 (JoinPart.after_probeGone ?_)
      rw [hf.probing_eq, probing_of_join (t := holdEntry .left i s) (s := s) (by simp)]
      exact hf.part hheld
    case isFalse =>
      split
      · exact (send_joinFrame _ _ s).sound h
      · exact (refuse_joinFrame _ _ _ _ s).sound h

end Renewal

/-! ### The observer's report and the receiver (spec/05.1, spec/07) -/

section Receiving

variable {s : State} {i : Index} {a : Nat}

theorem learn_joinSound (h : JoinSound s) : JoinSound (learn a s) := by
  unfold learn
  split
  · exact (setPart_joinFrame _ s).sound h
  case h_2 i hi => exact h.after_creating _ (lowestFree_eq.1 hi).1 nofun

theorem learnIfOn_joinSound (h : JoinSound s) : JoinSound (learnIfOn a s) := by
  unfold learnIfOn
  split
  · exact learn_joinSound h
  · exact h

theorem reportLive_joinFrame (i : Index) (s : State) : JoinFrame s (reportLive i s) := by
  simp only [reportLive]
  split
  · exact changeEntry_joinFrame _ rfl
  · split
    · exact addCollision_joinFrame i s
    · exact JoinFrame.refl s
  · exact addCollision_joinFrame i s
  · exact addCollision_joinFrame i s
  · exact JoinFrame.refl s

theorem JoinSound.closeUnasked (h : JoinSound s) (c : CtxNum) (r : Reason) :
    JoinSound (closeUnasked c r s) :=
  joinSound_iff.2 (((joinSound_iff.1 h).excuse (some c)).after_closeUnasked r)

/-- The offering context of a RESERVED entry is found (R61). -/
theorem JoinSound.offeringOf_ne_none (h : JoinSound s) (hr : (entry s i).state = .reserved) :
    offeringOf s i ≠ none := by
  intro hn
  obtain ⟨c, x, o, hx, ho, he⟩ := (joinSound_iff.1 h).reserved i hr
  rw [offeringOf, List.find?_eq_none] at hn
  exact hn c (List.mem_finRange c) (by simp [hx, ho, Stage.offer?, he])

theorem reportReserved_joinSound (h : JoinSound s) (hr : (entry s i).state = .reserved) :
    JoinSound (reportReserved i a s) := by
  unfold reportReserved
  refine learnIfOn_joinSound ?_
  split
  · exact h.closeUnasked _ _
  case h_2 hn => exact absurd hn (h.offeringOf_ne_none hr)

theorem reportHeld_joinSound (h : JoinSound s) (hs : (entry s i).state = .held) :
    JoinSound (reportHeld i a s) := by
  unfold reportHeld
  split
  · exact learn_joinSound (joinSound_iff.2 ((joinSound_iff.1 h).after_freeEntry (by rw [hs]; nofun)
      (.inl (by simp [Entry.live, hs]))))
  · exact h

theorem reportClear_joinSound (h : JoinSound s) : JoinSound (reportClear a s) := by
  unfold reportClear
  split
  · exact learnIfOn_joinSound h
  · split
    · exact h
    case h_2 hs => exact reportReserved_joinSound h hs
    · exact (reportLive_joinFrame _ s).sound h
    · exact (reportLive_joinFrame _ s).sound h
    case h_5 hs => exact reportHeld_joinSound h hs

theorem reportSet_joinFrame (a : Nat) (s : State) : JoinFrame s (reportSet a s) := by
  unfold reportSet
  split
  · exact JoinFrame.refl s
  · split
    · exact count_joinFrame _ s
    · split
      · exact count_joinFrame _ s
      · exact JoinFrame.refl s

theorem observe_joinSound {source : Nat} {bound : Bool} (h : JoinSound s) :
    JoinSound (observe source bound s) := by
  unfold observe
  split
  · split
    · exact (reportSet_joinFrame _ s).sound h
    · exact reportClear_joinSound h
  · exact h

/-- A request is buffered outside OFFLINE alone. -/
theorem offerRequest_joinSound {r : Request} (h : JoinSound s) (hp : s.phase.phase ≠ .offline) :
    JoinSound (offerRequest r s) := by
  unfold offerRequest
  split
  · obtain ⟨hu, ho, hr, hpr, hd, hc, _⟩ := h
    exact ⟨hu, ho, hr, hpr, hd, hc, fun hoff => absurd hoff hp⟩
  · exact ((count_joinFrame _ s).trans (setPart_joinFrame _ _)).sound h

theorem classify_joinSound {m : Heard} (h : JoinSound s) (hp : s.phase.phase ≠ .offline) :
    JoinSound (classify m s) := by
  unfold classify
  split
  · exact (count_joinFrame _ s).sound h
  · split
    · exact (count_joinFrame _ s).sound h
    · split
      · unfold takeRequest
        split
        · exact offerRequest_joinSound h hp
        · exact (refuse_joinFrame _ _ _ _ s).sound h
      · exact h

theorem reportLive_phase (i : Index) (s : State) : (reportLive i s).phase = s.phase := by
  simp only [reportLive]
  split
  · simp
  · split <;> simp
  · simp
  · simp
  · rfl

theorem learnIfOn_phase (a : Nat) (s : State) : (learnIfOn a s).phase = s.phase := by
  unfold learnIfOn learn
  split
  · split <;> simp
  · rfl

theorem reportClear_phase (a : Nat) (s : State) : (reportClear a s).phase = s.phase := by
  unfold reportClear
  split
  · exact learnIfOn_phase a s
  case h_2 i _ =>
    split
    · rfl
    · rw [reportReserved, learnIfOn_phase]
      split <;> simp
    · exact reportLive_phase i s
    · exact reportLive_phase i s
    · unfold reportHeld learn
      split
      · split <;> simp
      · rfl

theorem observe_phase (source : Nat) (bound : Bool) (s : State) :
    (observe source bound s).phase = s.phase := by
  unfold observe
  split
  · split
    · unfold reportSet
      split
      · rfl
      · split
        · simp
        · split <;> simp
    · exact reportClear_phase source s
  · rfl

theorem takeValid_joinSound {m : Heard} (h : JoinSound s) : JoinSound (takeValid m s) := by
  have hf : JoinFrame s (refreshAlive s) := JoinFrame.of_eq
  simp only [takeValid]
  split
  · exact hf.sound h
  case isFalse hp =>
    exact classify_joinSound (observe_joinSound (hf.sound h)) (by rwa [observe_phase])

theorem carrierFalls_joinFrame (s : State) : JoinFrame s (carrierFalls s) := by
  simp only [carrierFalls]
  split <;> exact JoinFrame.of_eq

theorem receiveMessage_joinSound {bytes : List Byte} {extra : Nat} {t : State} (h : JoinSound s)
    (ht : execReceiveMessage bytes extra s = .next t) : JoinSound t := by
  have hfalls := (carrierFalls_joinFrame s).sound h
  cases ht
  split
  · split
    · exact hfalls
    · exact (count_joinFrame _ _).sound hfalls
  · split
    · exact takeValid_joinSound hfalls
    split
    · exact hfalls
    · exact takeValid_joinSound hfalls

end Receiving

/-! ### The lease clock (spec/02) -/

section Lease

variable {s t : State} {i : Index}

theorem countedDown_joinView (e : Entry) (n : Nat) : (e.countedDown n).joinView = e.joinView := rfl

theorem tickSettle_joinFrame (s : State) : JoinFrame s (tickSettle s) := by
  unfold tickSettle
  split
  · split
    · exact JoinFrame.refl s
    · split <;> exact JoinFrame.of_eq
  · exact JoinFrame.refl s

theorem leaseTick_joinSound (h : JoinSound s) (ht : execLeaseTick s = .next t) : JoinSound t := by
  cases ht
  split
  · exact h
  · refine JoinFrame.sound (JoinFrame.trans ?_ (tickSettle_joinFrame _)) h
    refine JoinFrame.of_entries (fun i => ?_) rfl rfl rfl id
    obtain ⟨n, hn⟩ := tickedEntry_cases (entry s i) s.lease.owed[i]
    refine (congrArg Entry.joinView ((entry_ticked s i).trans hn)).trans ?_
    exact countedDown_joinView _ n

theorem takeOwed_joinFrame (i : Index) (s : State) : JoinFrame s (takeOwed i s) := JoinFrame.of_eq

theorem lowerRemaining_joinFrame (i : Index) (s : State) : JoinFrame s (lowerRemaining i s) := by
  refine JoinFrame.of_entries (fun j => ?_) rfl rfl rfl id
  have hentry : entry (lowerRemaining i s) j =
      if j = i then (entry s i).countedDown 1 else entry s j := entry_withEntry i j _ s
  rw [hentry]
  split
  case isTrue hj => rw [hj]; rfl
  case isFalse => rfl

/-- An expiry event keeps the invariant where the expiry of an entry in its own state does. -/
theorem expiryEvent_joinSound {own : Entry → Bool} {expire : Index → State → State} (h : JoinSound s)
    (he : ∀ u, JoinSound u → own (entry u i) = true → JoinSound (expire i u)) :
    JoinSound (expiryEvent own expire i s) := by
  obtain hs | ⟨_, _, hs⟩ | ⟨_, _, _, hs⟩ | ⟨_, _, _, ho, hs⟩ := expiryEvent_cases own expire i s <;>
    rw [hs]
  · exact h
  · exact (takeOwed_joinFrame i s).sound h
  · exact ((takeOwed_joinFrame i s).trans (lowerRemaining_joinFrame i _)).sound h
  · exact he _ ((takeOwed_joinFrame i s).sound h) ho

/-- A binding held after its expiry leaves its probe to the outcome GONE. -/
theorem holdExpired_joinSound (h : JoinSound s) (hr : (entry s i).state ≠ .reserved) :
    JoinSound (probeGone i (holdEntry .expired i s)) := by
  refine joinSound_iff.2 (JoinPart.after_probeGone ?_)
  rw [probing_of_join (t := holdEntry .expired i s) (s := s) (by simp)]
  exact (joinSound_iff.1 h).after_holdEntry _ hr

theorem expireBound_joinSound (h : JoinSound s)
    (ho : ((entry s i).leased && (entry s i).state == .bound) = true) :
    JoinSound (expireBound i s) := by
  simp only [Bool.and_eq_true, beq_iff_eq] at ho
  have ht := (count_joinFrame .lapses s).sound h
  have hentry : entry (count .lapses s) i = entry s i := by simp [entry]
  simp only [expireBound]
  split
  · exact holdExpired_joinSound ht (by rw [hentry, ho.2]; nofun)
  · refine (changeEntry_joinFrame _ ?_).sound ht
    simp [Entry.joinView, hentry, Entry.live, Entry.leased, ho.2]

theorem lapsingExpiry_joinSound (h : JoinSound s)
    (ho : ((entry s i).leased && (entry s i).state == .lapsing) = true) :
    JoinSound (probeGone i (holdEntry .expired i s)) := by
  simp only [Bool.and_eq_true, beq_iff_eq] at ho
  exact holdExpired_joinSound h (by rw [ho.2]; nofun)

theorem heldExpiry_joinSound (h : JoinSound s)
    (ho : ((entry s i).leased && (entry s i).state == .held) = true) : JoinSound (freeEntry i s) := by
  simp only [Bool.and_eq_true, beq_iff_eq] at ho
  exact joinSound_iff.2 ((joinSound_iff.1 h).after_freeEntry (by rw [ho.2]; nofun)
    (.inl (by simp [Entry.live, ho.2])))

theorem legacySilence_joinSound (h : JoinSound s)
    (ho : ((entry s i).origin == some .legacy && (entry s i).state == .bound) = true) :
    JoinSound (freeEntry i s) := by
  simp only [Bool.and_eq_true, beq_iff_eq] at ho
  exact joinSound_iff.2 ((joinSound_iff.1 h).after_freeEntry (by rw [ho.2]; nofun)
    (.inr (by simp [Entry.leased, ho.1])))

end Lease

/-! ### Timers (spec/04.1, spec/05.2, spec/07.6) -/

section Timers

variable {s t : State} {c : CtxNum} {x : Exchange}

theorem pageExpires_joinSound (h : JoinSound s) : JoinSound (pageExpires c s) := by
  unfold pageExpires
  split
  · exact h
  · split
    · exact ((advanceTo_joinFrame _ s).sound h).closeUnasked _ _
    · exact h
    · exact h

theorem agreeExpires_joinSound (h : JoinSound s) : JoinSound (agreeExpires c s) := by
  unfold agreeExpires
  split
  · exact h
  · split
    · exact ((advanceTo_joinFrame _ s).sound h).closeUnasked _ _
    · exact h
    · exact h

theorem goneUnanswered_joinSound (h : JoinSound s) (hx : context s c = some x)
    (hch : x.checking = true) : JoinSound (goneUnanswered c x s) := by
  have hr := h.after_resolveTerms hx hch
  unfold goneUnanswered
  split
  · exact hr
  · unfold noteSuperseded
    split
    · exact hr
    · split
      · exact (rememberHolder_joinFrame _ _ _).sound hr
      · exact hr

theorem probeExpires_joinSound (h : JoinSound s) : JoinSound (probeExpires c s) := by
  unfold probeExpires
  split
  · exact h
  case h_2 x hx =>
    split
    case h_1 tries d hs =>
      have hch : x.checking = true := by simp [Exchange.checking, hs]
      have ht := (advanceTo_joinFrame d s).sound h
      have hgone := goneUnanswered_joinSound (x := x) ht hx hch
      simp only []
      split
      · split
        · obtain ⟨i, hi⟩ := (joinSound_iff.1 h).probes c x nofun hx hch
          exact joinSound_iff.2 (((joinSound_iff.1 ht).excuse (some c)).after_sendCheck hx
            (offer?_of_checking hch) rfl (h.joining hx) ⟨i, hi⟩)
        · exact hgone
      · exact hgone
    · exact h
    · exact h
    · exact h

theorem silenceTimerExpiry_joinSound (h : JoinSound s) (ht : execSilenceTimerExpiry s = .next t) :
    JoinSound t := by
  cases ht
  split
  · exact h
  · exact JoinFrame.sound JoinFrame.of_eq h

end Timers

/-! ### Lookups and the transmitter (spec/06, spec/07.4) -/

section Transmitter

variable {s t : State}

theorem takeFind_joinFrame (r : Request) (s : State) : JoinFrame s (takeFind r s) := by
  unfold takeFind
  split
  · refine JoinFrame.trans ?_ (arbitrate_joinFrame _)
    exact JoinFrame.of_eq
  · exact (count_joinFrame _ s).trans (send_joinFrame _ _ _)

theorem walkExamination_joinFrame (ht : execWalkExamination s = .next t) : JoinFrame s t := by
  have hend : JoinFrame s { s with lookup.walk := none } := JoinFrame.of_eq
  cases ht
  split
  · exact JoinFrame.refl s
  · simp only [examineBus]
    split
    · exact (hend.trans (send_joinFrame _ _ _)).trans (arbitrate_joinFrame _)
    · exact JoinFrame.of_eq
  · simp only [examineHost]
    split
    · exact hend.then_finish.trans (arbitrate_joinFrame _)
    · exact JoinFrame.of_eq

theorem beginAt_joinFrame (n : Nat) (s : State) : JoinFrame s (beginAt n s) := by
  unfold beginAt
  exact JoinFrame.of_eq

theorem attemptBegin_joinFrame (ht : execAttemptBegin s = .next t) : JoinFrame s t := by
  cases ht
  split
  · exact beginAt_joinFrame _ s
  · split
    · exact JoinFrame.refl s
    · exact beginAt_joinFrame _ s
  all_goals exact JoinFrame.refl s

theorem carrierRise_joinFrame (ht : execCarrierRise s = .next t) : JoinFrame s t := by
  have hrises : JoinFrame s (carrierRises s) := JoinFrame.of_eq
  cases ht
  split
  · exact JoinFrame.refl s
  · split
    · split
      · exact hrises
      · exact JoinFrame.of_eq
    all_goals exact hrises

theorem ownCarrierFalls_joinFrame (s : State) : JoinFrame s (ownCarrierFalls s) := by
  unfold ownCarrierFalls
  split
  · exact JoinFrame.refl s
  · exact JoinFrame.of_eq

theorem endSurvival_joinFrame (s : State) : JoinFrame s (endSurvival s) := by
  have hended : JoinFrame s { s with port.surviving := false } := JoinFrame.of_eq
  simp only [endSurvival]
  split
  · split
    · exact hended.then_finish
    all_goals exact hended
  all_goals exact hended

theorem endAttempt_joinFrame (s : State) : JoinFrame s (endAttempt s) := by
  unfold endAttempt
  split
  · exact endSurvival_joinFrame s
  · exact JoinFrame.refl s

theorem headLeaves_joinFrame (o : NoticeOutcome) (m : QueuedMessage) (rest : List QueuedMessage)
    (s : State) : JoinFrame s (headLeaves o m rest s) := by
  have hleft : JoinFrame s { s with port.queue := rest } := JoinFrame.of_eq
  exact (hleft.trans (reportAll_joinFrame _ _ _)).trans (promote_joinFrame _ _)

theorem attemptSent_joinFrame (ht : execAttemptSent s = .next t) : JoinFrame s t := by
  cases ht
  split
  · exact (((advanceTo_joinFrame _ s).trans (ownCarrierFalls_joinFrame _)).trans
      (headLeaves_joinFrame _ _ _ _)).trans (endAttempt_joinFrame _)
  · exact JoinFrame.refl s

theorem collisionSignal_joinFrame (ht : execCollisionSignal s = .next t) : JoinFrame s t := by
  cases ht
  split
  · exact JoinFrame.of_eq
  · exact JoinFrame.refl s

theorem jamEnds_joinFrame (m : QueuedMessage) (rest : List QueuedMessage) (s : State) :
    JoinFrame s (jamEnds m rest s) := by
  unfold jamEnds
  split
  · exact (headLeaves_joinFrame _ _ _ s).trans (endSurvival_joinFrame _)
  split
  · exact (count_joinFrame _ s).trans (headLeaves_joinFrame _ _ _ _)
  · simp only [backOff]
    split
    · refine JoinFrame.trans ?_ (takeUp_joinFrame _)
      exact JoinFrame.of_eq
    · exact JoinFrame.of_eq

theorem jamEnd_joinFrame (ht : execJamEnd s = .next t) : JoinFrame s t := by
  cases ht
  split
  · exact ((advanceTo_joinFrame _ s).trans (ownCarrierFalls_joinFrame _)).trans (jamEnds_joinFrame _ _ _)
  · exact JoinFrame.refl s

theorem backoffEnd_joinFrame (ht : execBackoffEnd s = .next t) : JoinFrame s t := by
  cases ht
  split
  · exact (advanceTo_joinFrame _ s).trans (takeUp_joinFrame _)
  all_goals exact JoinFrame.refl s

end Transmitter

/-! ### Every command, and every step -/

theorem joinSound_reset : JoinSound State.reset :=
  joinPart_without_contexts context_reset (fun i => by rw [entry_reset]; nofun) rfl fun _ => rfl

/-- A request is dispatched outside OFFLINE alone, where none is buffered. -/
theorem dispatch_joinSound {k : ReqKind} {owner : Request → State → State} {s : State} (h : JoinSound s)
    (ho : ∀ r u, JoinSound u → u.phase.phase ≠ .offline → JoinSound (owner r u)) :
    JoinSound (dispatch k owner s) := by
  obtain ⟨hs, _⟩ | ⟨r, rest, hi, _, hs⟩ := dispatch_cases k owner s <;> rw [hs]
  · exact h
  · have hne : s.phase.phase ≠ .offline := fun hoff => by
      obtain ⟨_, _, _, _, _, _, hinbound⟩ := h
      exact absurd (hi.symm.trans (hinbound hoff)) nofun
    have hf : JoinFrame s { s with port.inbound := rest } :=
      JoinFrame.of_eq rfl rfl rfl rfl fun he => absurd (hi.symm.trans he) nofun
    exact ho r _ (hf.sound h) hne

theorem exec_joinSound {c : Instr} {s t : State} (h : exec c s = .next t) (hs : JoinSound s) :
    JoinSound t := by
  cases c with
  | coldReset => exact coldReset_keeps h fun _ _ _ _ _ _ _ => joinSound_reset
  | configure f => cases h; exact takeCommand_joinSound hs fun u => (configure_joinFrame u).sound
  | readParameter f => cases h; exact takeCommand_joinSound hs fun u => (readParameter_joinFrame u).sound
  | enable f => cases h; exact takeCommand_joinSound hs fun _ => enable_joinSound
  | disable f => cases h; exact takeCommand_joinSound hs fun _ => disable_joinSound
  | suspend f => cases h; exact takeCommand_joinSound hs fun _ => suspend_joinSound
  | resume f => cases h; exact takeCommand_joinSound hs fun _ => resume_joinSound
  | filterPut f => cases h; exact takeCommand_joinSound hs fun u => (filterPut_joinFrame u).sound
  | filterRemove f => cases h; exact takeCommand_joinSound hs fun u => (filterRemove_joinFrame u).sound
  | filterRead f => cases h; exact takeCommand_joinSound hs fun u => (filterRead_joinFrame u).sound
  | addStatic f => cases h; exact takeCommand_joinSound hs fun _ => addStatic_joinSound
  | edit f => cases h; exact takeCommand_joinSound hs fun u => (edit_joinFrame u).sound
  | revoke f => cases h; exact takeCommand_joinSound hs fun _ => revoke_joinSound
  | confirmKeep f => cases h; exact takeCommand_joinSound hs fun u => (confirmKeep_joinFrame u).sound
  | confirmEvict f => cases h; exact takeCommand_joinSound hs fun _ => confirmEvict_joinSound
  | readEntry f => cases h; exact takeCommand_joinSound hs fun u => (readEntry_joinFrame u).sound
  | findAddress f => cases h; exact takeCommand_joinSound hs fun u => (findAddress_joinFrame u).sound
  | lookup f => cases h; exact takeCommand_joinSound hs fun u => (lookup_joinFrame u).sound
  | readContext f => cases h; exact takeCommand_joinSound hs fun u => (readContext_joinFrame u).sound
  | readDeferrals f => cases h; exact takeCommand_joinSound hs fun u => (readDeferrals_joinFrame u).sound
  | nextChange f => cases h; exact takeCommand_joinSound hs fun u => (nextChange_joinFrame u).sound
  | readCounters f => cases h; exact takeCommand_joinSound hs fun u => (readCounters_joinFrame u).sound
  | interruptSetup f =>
    cases h
    exact takeCommand_joinSound hs fun u => (interruptSetup_joinFrame u).sound
  | flush f => cases h; exact takeCommand_joinSound hs fun _ => flush_joinSound
  | portRestart f => cases h; exact takeCommand_joinSound hs fun _ => portRestart_joinSound
  | result => cases h; exact takeTransaction_joinSound hs ((fixReply_joinFrame s).sound hs)
  | resultRelease n =>
    have hreleased (g : HostPort) : JoinSound { s with host := g } := JoinFrame.sound JoinFrame.of_eq hs
    cases h
    split
    · simp only []
      split
      · exact hreleased _
      · exact hreleased _
    · exact hreleased _
    · exact hreleased _
    · exact hreleased _
    · exact hs
  | status => cases h; exact takeTransaction_joinSound hs ((takeStatus_joinFrame s).sound hs)
  | abort =>
    cases h
    have hf : JoinFrame s { s with host.transaction := .filler } := JoinFrame.of_eq
    exact takeTransaction_joinSound hs ((hf.trans (abort_joinFrame _)).sound hs)
  | receiveMessage bytes extra => exact receiveMessage_joinSound hs h
  | join => cases h; exact dispatch_joinSound hs fun _ _ => takeJoin_joinSound
  | extend => cases h; exact dispatch_joinSound hs fun _ _ hu _ => takeExtend_joinSound hu
  | agree => cases h; exact dispatch_joinSound hs fun _ _ hu _ => takeAgree_joinSound hu
  | reply => cases h; exact dispatch_joinSound hs fun _ _ hu _ => takeReply_joinSound hu
  | keep => cases h; exact dispatch_joinSound hs fun _ _ hu _ => takeKeep_joinSound hu
  | leave => cases h; exact dispatch_joinSound hs fun _ _ hu _ => takeLeave_joinSound hu
  | find => cases h; exact dispatch_joinSound hs fun r u hu _ => (takeFind_joinFrame r u).sound hu
  | walkExamination => exact (walkExamination_joinFrame h).sound hs
  | leaseTick => exact leaseTick_joinSound hs h
  | boundExpiry i => cases h; exact expiryEvent_joinSound hs fun _ => expireBound_joinSound
  | lapsingExpiry i => cases h; exact expiryEvent_joinSound hs fun _ => lapsingExpiry_joinSound
  | heldExpiry i => cases h; exact expiryEvent_joinSound hs fun _ => heldExpiry_joinSound
  | legacySilenceExpiry i => cases h; exact expiryEvent_joinSound hs fun _ => legacySilence_joinSound
  | settleExpiry => exact settleExpiry_joinSound hs h
  | pageTimerExpiry k => cases h; exact pageExpires_joinSound hs
  | agreeTimerExpiry k => cases h; exact agreeExpires_joinSound hs
  | probeTimerExpiry k => cases h; exact probeExpires_joinSound hs
  | silenceTimerExpiry => exact silenceTimerExpiry_joinSound hs h
  | attemptBegin => exact (attemptBegin_joinFrame h).sound hs
  | carrierRise => exact (carrierRise_joinFrame h).sound hs
  | attemptSent => exact (attemptSent_joinFrame h).sound hs
  | collisionSignal => exact (collisionSignal_joinFrame h).sound hs
  | jamEnd => exact (jamEnd_joinFrame h).sound hs
  | backoffEnd => exact (backoffEnd_joinFrame h).sound hs

/-- Settles O8: each command keeps contexts, offers, reserved entries, probes and deferrals matched. -/
theorem joinSoundKept : Obligations.JoinSoundKept := fun _ _ _ hs h =>
  step_keeps (P := JoinSound) (fun _ _ => id) (fun n u => (advanceTo_joinFrame n u).sound)
    (fun _ _ _ hv hu => exec_joinSound hv hu) h hs

end Sys2Proof.Machine
end

section
/-! The segment port and the engine (R123, R125, R134, R164): the engine's invariant with the messages it
waits for counted apart from the queue, and what reports, answers and the arbiter do to it. -/

namespace Sys2Proof.Machine

-- One lemma is elaborated after another, which keeps the check's memory low.
set_option Elab.async false

/-! ### The engine's invariant, the notices counted apart -/

/-- The engine's invariant where `n` messages, of the queue or just taken out of it, have the engine as a
waiter, and where a command in hand may have yet to be carried out (`w`): the shape it has while messages
leave the queue and while the command that was taken is carried out. -/
structure EngineOwes (w : Prop) (n : Nat) (s : State) : Prop where
  atOnce : workInHand s = some .atOnce ↔ w
  waits : n = (noticeInHand s).toNat
  attempt : workInHand s = some .attemptEnd ↔ s.port.surviving = true
  walk : workInHand s = some .walk ↔ (s.lookup.hostSlot.isSome || hostWalking s) = true
  apart : (s.lookup.hostSlot.isSome && hostWalking s) = false
  reading : ∀ reply, s.host.transaction = .result reply true →
    ∃ r, s.host.engine = .done r ∧ reply = r.bytes

/-- The engine's invariant as the queue stands. -/
def EngineTurn (w : Prop) (s : State) : Prop := EngineOwes w (engineWaits s) s

theorem engineSound_iff {s : State} : EngineSound s ↔ EngineTurn False s :=
  ⟨fun ⟨ha, hn, he, hw, hb, hr⟩ => ⟨iff_false_intro ha, hn, he, hw, hb, hr⟩,
    fun h => ⟨h.atOnce.1, h.waits, h.attempt, h.walk, h.apart, h.reading⟩⟩

theorem noticeInHand_iff {s : State} :
    noticeInHand s = true ↔ ∃ i g, workInHand s = some (.notice i g) := by
  unfold noticeInHand
  split <;> simp_all

theorem workInHand_executing {s : State} {r : CommandRecord} (h : s.host.engine = .executing r) :
    workInHand s = some r.work := by
  rw [workInHand, h]

theorem workInHand_done {s : State} {r : ResultRecord} (h : s.host.engine = .done r) :
    workInHand s = none := by
  rw [workInHand, h]

/-- What the engine's invariant reads besides the queue. -/
theorem EngineOwes.congr {w : Prop} {n : Nat} {s t : State} (h : EngineOwes w n s)
    (hh : t.host = s.host) (hs : t.port.surviving = s.port.surviving)
    (hl : t.lookup.hostSlot = s.lookup.hostSlot) (hw : t.lookup.walk = s.lookup.walk) :
    EngineOwes w n t := by
  have hwork : workInHand t = workInHand s := by rw [workInHand, hh]; rfl
  have hwalking : hostWalking t = hostWalking s := by rw [hostWalking, hw]; rfl
  have hnotice : noticeInHand t = noticeInHand s := by rw [noticeInHand, hwork]; rfl
  obtain ⟨ha, hn, he, hk, hb, hr⟩ := h
  exact ⟨by rwa [hwork], by rwa [hnotice], by rwa [hwork, hs], by rwa [hwork, hl, hwalking],
    by rwa [hl, hwalking], by rwa [hh]⟩

/-! ### Reports (R131) -/

section Reports

variable {w : Prop} {n : Nat} {s : State}

theorem finish_host_executing {r : CommandRecord} (h : s.host.engine = .executing r) (st : Status)
    (d : List Byte) :
    finish st d s = { s with host.engine := .done ⟨r.tag, st, d⟩ } := by
  rw [finish, h]

/-- A completed command leaves nothing that the engine waits for, once its notice has left the queue. -/
theorem EngineOwes.finished {m : Nat} {r : CommandRecord} (h : EngineOwes w n s)
    (hc : s.host.engine = .executing r) (hw : r.work ≠ .attemptEnd) (hk : r.work ≠ .walk)
    (hm : m = 0) (st : Status) (d : List Byte) : EngineOwes False m (finish st d s) := by
  have hwork := workInHand_executing hc
  have hs : s.port.surviving ≠ true := fun hsurv => hw (Option.some.inj (hwork.symm.trans (h.attempt.2 hsurv)))
  have hl : (s.lookup.hostSlot.isSome || hostWalking s) ≠ true := fun hlook =>
    hk (Option.some.inj (hwork.symm.trans (h.walk.2 hlook)))
  rw [finish_host_executing hc]
  refine ⟨iff_false_intro nofun, by rw [hm]; rfl, ?_, ?_, h.apart, fun reply hr => ?_⟩
  · exact iff_of_false nofun hs
  · exact iff_of_false nofun hl
  · obtain ⟨_, hdone, _⟩ := h.reading reply hr
    exact absurd (hc.symm.trans hdone) nofun

theorem EngineOwes.after_reportTo (h : EngineOwes w ([v].count .engine + n) s) (o : NoticeOutcome) :
    EngineOwes w n (reportTo o v s) := by
  cases v with
  | context c token =>
    have hn : EngineOwes w n s := by simpa using h
    obtain hs | ⟨c', _, x, k, _, _, _, hs⟩ | ⟨_, _, _, hv, _⟩ := reportTo_cases o (.context c token) s
    · rwa [hs]
    · rw [hs]
      exact hn.congr rfl rfl rfl rfl
    · exact nomatch hv
  | engine =>
    have hone : noticeInHand s = true ∧ n = 0 := by
      have hw := h.waits
      rw [List.count_singleton_self] at hw
      cases hb : noticeInHand s <;> simp [hb] at hw
      exact ⟨rfl, hw⟩
    obtain ⟨hnotice, rfl⟩ := hone
    obtain ⟨i, g, hig⟩ := noticeInHand_iff.1 hnotice
    cases he : s.host.engine with
    | idle => rw [workInHand, he] at hig; exact nomatch hig
    | done r => rw [workInHand, he] at hig; exact nomatch hig
    | executing r =>
      have hr : r.work = .notice i g := Option.some.inj ((workInHand_executing he).symm.trans hig)
      have hw : ¬ w := fun hw => absurd ((h.atOnce.2 hw).symm.trans hig) nofun
      have hdone := h.finished he (by rw [hr]; nofun) (by rw [hr]; nofun) rfl .ok (noticeData i g o)
      rw [iff_false_intro hw]
      simpa only [reportTo, he, hr] using hdone

theorem EngineOwes.after_reportAll {ws : List Waiter} (h : EngineOwes w (ws.count .engine + n) s)
    (o : NoticeOutcome) : EngineOwes w n (reportAll o ws s) := by
  induction ws generalizing s with
  | nil => simpa [reportAll] using h
  | cons v ws ih =>
    refine ih (EngineOwes.after_reportTo (v := v) ?_ o)
    rwa [← Nat.add_assoc, ← List.count_append]

theorem waitersOf_cons (m : QueuedMessage) (l : List QueuedMessage) :
    waitersOf (m :: l) = m.waiters ++ waitersOf l := rfl

theorem waitersOf_append (l l' : List QueuedMessage) :
    waitersOf (l ++ l') = waitersOf l ++ waitersOf l' := by
  simp [waitersOf]

/-- The engine waits for the messages that are left as their predecessors leave the queue. -/
theorem EngineOwes.after_promote {l : List QueuedMessage}
    (h : EngineOwes w ((waitersOf l).count .engine) s) : EngineTurn w (promote l s) := by
  induction l generalizing s with
  | nil =>
    rw [promote]
    exact h.congr rfl rfl rfl rfl
  | cons m rest ih =>
    rw [promote]
    split
    · refine ih (EngineOwes.after_reportAll (ws := m.waiters) ?_ .dropped)
      rw [← List.count_append, ← waitersOf_cons]
      exact h.congr (by simp) (by simp) (by simp) (by simp)
    · have hw : engineWaits (takeUp { s with port.queue := m :: rest }) =
          (waitersOf (m :: rest)).count .engine := by simp [engineWaits]
      rw [EngineTurn, hw]
      exact h.congr (by simp) (by simp) (by simp) (by simp)

end Reports

/-! ### What keeps port and engine -/

/-- A change that keeps the port's invariant and the engine's. -/
structure PortKept (s t : State) : Prop where
  port : PortSound s → PortSound t
  engine : ∀ w, EngineTurn w s → EngineTurn w t

section Kept

variable {s t u : State}

theorem PortKept.refl (s : State) : PortKept s s := ⟨id, fun _ => id⟩

theorem PortKept.trans (h : PortKept s t) (h' : PortKept t u) : PortKept s u :=
  ⟨h'.port ∘ h.port, fun w => h'.engine w ∘ h.engine w⟩

/-- Neither queue nor transmitter, buffer, phase, engine nor the host's lookup changes. -/
theorem PortKept.of_eq (hq : t.port.queue = s.port.queue := by simp)
    (htx : t.port.tx = s.port.tx := by simp) (hi : t.port.inbound = s.port.inbound := by simp)
    (hs : t.port.surviving = s.port.surviving := by simp)
    (hp : t.phase.phase = s.phase.phase := by simp) (hh : t.host = s.host := by simp)
    (hl : t.lookup.hostSlot = s.lookup.hostSlot := by simp)
    (hw : t.lookup.walk = s.lookup.walk := by simp) : PortKept s t := by
  refine ⟨fun h => ?_, fun w h => ?_⟩
  · unfold PortSound attemptUnderWay at h ⊢
    rwa [hq, htx, hi, hs, hp]
  · rw [EngineTurn, engineWaits, hq]
    exact h.congr hh hs hl hw

theorem setPart_portKept (c : CauseSet) (s : State) : PortKept s (setPart c s) := PortKept.of_eq

theorem count_portKept (c : Counter) (s : State) : PortKept s (count c s) := PortKept.of_eq

theorem advanceTo_portKept (n : Nat) (s : State) : PortKept s (advanceTo n s) := PortKept.of_eq

theorem changeEntry_portKept (i : Index) (e : Entry) (c : CauseSet) (s : State) :
    PortKept s (changeEntry i e c s) := PortKept.of_eq

theorem freeEntry_portKept (i : Index) (s : State) : PortKept s (freeEntry i s) := PortKept.of_eq

theorem holdEntry_portKept (c : HeldCause) (i : Index) (s : State) : PortKept s (holdEntry c i s) :=
  PortKept.of_eq

theorem setContext_portKept (c : CtxNum) (x : Option Exchange) (s : State) :
    PortKept s (setContext c x s) := PortKept.of_eq

theorem addCollision_portKept (i : Index) (s : State) : PortKept s (addCollision i s) := PortKept.of_eq

/-- The port's invariant reads no waiter, engine or context. -/
theorem PortSound.congr (h : PortSound s) (hp : t.port = s.port) (hph : t.phase = s.phase) :
    PortSound t := by
  unfold PortSound attemptUnderWay at h ⊢
  rwa [hp, hph]

theorem PortSound.after_reportAll (h : PortSound s) (o : NoticeOutcome) (ws : List Waiter) :
    PortSound (reportAll o ws s) := h.congr (by simp) (by simp)

/-! ### The answer queue (R125, R126) -/

theorem mergeInto_waiters {d : Nat} {a : Answer} {ws : List Waiter} {l l' : List QueuedMessage}
    (h : mergeInto d a ws l = some l') :
    (waitersOf l').count .engine = ws.count .engine + (waitersOf l).count .engine := by
  induction l generalizing l' with
  | nil => cases h
  | cons m rest ih =>
    rw [mergeInto] at h
    split at h
    · cases h
      simp only [waitersOf_cons, List.count_append]
      omega
    · obtain ⟨r, hr, rfl⟩ := Option.map_eq_some_iff.1 h
      simp only [waitersOf_cons, List.count_append, ih hr]
      omega

theorem mergeInto_length {d : Nat} {a : Answer} {ws : List Waiter} {l l' : List QueuedMessage}
    (h : mergeInto d a ws l = some l') : l'.length = l.length := by
  simpa using congrArg List.length (mergeInto_keys h)

theorem attemptUnderWay_takeUp (s : State) (h : s.port.surviving = false) :
    (takeUp s).port.surviving = true → attemptUnderWay (takeUp s) = true := by
  rw [takeUp_surviving, h]
  nofun

theorem handOver_portSound (d : Nat) (a : Answer) (ws : List Waiter) (h : PortSound s) :
    PortSound (handOver d a ws s) := by
  obtain ⟨hidle, hlen, hin, hsurv, hoff⟩ := id h
  obtain ⟨_, hs⟩ | ⟨hp, hq, hs⟩ | ⟨m, q, q', hp, hq, hm, hs⟩ | ⟨m, q, _, hq, _, _, hs⟩
    | ⟨m, q, hp, hq, hm, hroom, hs⟩ := handOver_cases d a ws s <;> rw [hs]
  · exact h.after_reportAll _ _
  · have hns : s.port.surviving = false := by
      cases hb : s.port.surviving with
      | false => rfl
      | true =>
        have := hsurv hb
        simp [attemptUnderWay, hidle.2 hq] at this
    refine ⟨iff_of_false (takeUp_not_idle _) (by simp), by simp [Config.queueMessages], by simpa using hin,
      attemptUnderWay_takeUp _ hns, fun ho => absurd (by simpa using ho) hp⟩
  · have hne : s.port.tx ≠ .idle := fun htx => absurd (hq.symm.trans (hidle.1 htx)) nofun
    refine ⟨iff_of_false hne nofun, ?_, hin, hsurv, fun ho => absurd ho hp⟩
    simpa [mergeInto_length hm, hq] using hlen
  · exact (((setPart_portKept _ _).port ((count_portKept _ s).port h))).after_reportAll _ _
  · have hne : s.port.tx ≠ .idle := fun htx => absurd (hq.symm.trans (hidle.1 htx)) nofun
    refine ⟨iff_of_false hne nofun, ?_, hin, hsurv, fun ho => absurd ho hp⟩
    simpa using Nat.succ_le_of_lt hroom

/-- A message's waiters, the engine among them or not, are counted with the queue's or told. -/
theorem handOver_engineTurn {w : Prop} {ws : List Waiter} (d : Nat) (a : Answer)
    (h : EngineOwes w (ws.count .engine + engineWaits s) s) : EngineTurn w (handOver d a ws s) := by
  obtain ⟨_, hs⟩ | ⟨hp, hq, hs⟩ | ⟨m, q, q', hp, hq, hm, hs⟩ | ⟨m, q, _, hq, _, _, hs⟩
    | ⟨m, q, hp, hq, hm, hroom, hs⟩ := handOver_cases d a ws s <;> rw [hs]
  · have hw : engineWaits (reportAll .dropped ws s) = engineWaits s := by simp [engineWaits]
    rw [EngineTurn, hw]
    exact h.after_reportAll _
  · rw [EngineTurn]
    have hw : engineWaits (takeUp { s with port.queue := [newMessage d a ws s] })
        = ws.count .engine + engineWaits s := by
      simp [engineWaits, hq, waitersOf, newMessage]
    rw [hw]
    exact h.congr (by simp) (by simp) (by simp) (by simp)
  · have hw : engineWaits { s with port.queue := m :: q' } = ws.count .engine + engineWaits s := by
      simp only [engineWaits, hq, waitersOf_cons, List.count_append, mergeInto_waiters hm]
      omega
    rw [EngineTurn, hw]
    exact h.congr rfl rfl rfl rfl
  · have hw : engineWaits (reportAll .dropped ws (setPart partQueueDrop (count .answerDrops s)))
        = engineWaits s := by simp [engineWaits]
    rw [EngineTurn, hw]
    refine EngineOwes.after_reportAll ?_ _
    exact h.congr (by simp) (by simp) (by simp) (by simp)
  · have hw : engineWaits { s with port.queue := m :: q ++ [newMessage d a ws s] }
        = ws.count .engine + engineWaits s := by
      simp only [engineWaits, hq, waitersOf_append, List.count_append]
      simp [waitersOf, newMessage, Nat.add_comm]
    rw [EngineTurn, hw]
    exact h.congr rfl rfl rfl rfl

theorem handOver_portKept {ws : List Waiter} (d : Nat) (a : Answer) (s : State)
    (h : ws.count .engine = 0) : PortKept s (handOver d a ws s) :=
  ⟨handOver_portSound d a ws, fun w hs => handOver_engineTurn d a (by rwa [h, Nat.zero_add])⟩

theorem send_portKept (d : Nat) (a : Answer) (s : State) : PortKept s (send d a s) :=
  handOver_portKept d a s rfl

theorem refuse_portKept (d : Nat) (x : Identity) (k : ReqKind) (r : Reason) (s : State) :
    PortKept s (refuse d x k r s) := (count_portKept _ s).trans (send_portKept _ _ _)

theorem PortKept.then_refuse {d : Nat} {x : Identity} {k : ReqKind} {r : Reason} (h : PortKept s t) :
    PortKept s (refuse d x k r t) := h.trans (refuse_portKept d x k r t)

theorem holdoff_portKept (x : Identity) (s : State) : PortKept s (holdoff x s) := by
  refine PortKept.trans ?_ (send_portKept _ _ _)
  exact PortKept.trans PortKept.of_eq (count_portKept _ _)

/-! ### The arbiter (R109) -/

theorem EngineOwes.with_lookup {w : Prop} {n : Nat} {l : LookupUnit} (h : EngineOwes w n s)
    (hor : (l.hostSlot.isSome || hostWalking { s with lookup := l })
      = (s.lookup.hostSlot.isSome || hostWalking s))
    (hand : (l.hostSlot.isSome && hostWalking { s with lookup := l }) = false) :
    EngineOwes w n { s with lookup := l } :=
  ⟨h.atOnce, h.waits, h.attempt, by rw [hor]; exact h.walk, hand, h.reading⟩

theorem arbitrate_portKept (s : State) : PortKept s (arbitrate s) := by
  refine ⟨fun h => ?_, fun w h => ?_⟩
  · rw [arbitrate_eq_lookup]
    exact h
  · unfold arbitrate
    split
    · exact h
    case h_2 hw =>
      split
      · exact h
      case h_2 hb hh => exact h.with_lookup (by simp [hh, hostWalking, hw]) (by simp [hostWalking])
      case h_3 hb hh => exact h.with_lookup (by simp [hh, hostWalking]) (by simp)
      case h_4 hb hh =>
        split
        · exact h.with_lookup (by simp [hh, hostWalking]) (by simp)
        · exact h.with_lookup (by simp [hh, hostWalking, hw]) (by simp [hostWalking])

end Kept

end Sys2Proof.Machine
end

section
/-! What the requests of the bus, the observer, the timers and the lease clock do to the segment port and
the engine: they hand answers over, and nothing else (R164). -/

namespace Sys2Proof.Machine

-- One lemma is elaborated after another, which keeps the check's memory low.
set_option Elab.async false

/-! ### Contexts and resolution (spec/04) -/

section Contexts

variable {s t : State}

theorem closeContext_portKept (c : CtxNum) (s : State) : PortKept s (closeContext c s) := PortKept.of_eq

theorem closeRefused_portKept (c : CtxNum) (k : ReqKind) (r : Reason) (s : State) :
    PortKept s (closeRefused c k r s) := by
  unfold closeRefused
  split
  · exact PortKept.refl s
  · exact (closeContext_portKept c s).then_refuse

theorem closeUnasked_portKept (c : CtxNum) (r : Reason) (s : State) :
    PortKept s (closeUnasked c r s) := by
  refine PortKept.trans ?_ (closeRefused_portKept _ _ _ _)
  exact PortKept.of_eq

theorem closeDuplicate_portKept (c : CtxNum) (s : State) : PortKept s (closeDuplicate c s) :=
  (count_portKept _ s).trans (closeUnasked_portKept _ _ _)

theorem allocate_portKept {i : Index} (h : allocate s = some (i, t)) : PortKept s t := by
  obtain ⟨_, rfl⟩ | ⟨_, _, rfl⟩ := allocate_cases h
  · exact PortKept.refl t
  · exact freeEntry_portKept i s

theorem joinEntry_portKept {target : Option Index} {i : Index}
    (h : joinEntry s target = some (i, t)) : PortKept s t := by
  obtain ⟨_, rfl⟩ | ⟨_, hal⟩ := joinEntry_cases h
  · exact PortKept.refl t
  · exact allocate_portKept hal

theorem reserveAndOffer_portKept (c : CtxNum) (x : Exchange) (i : Index) (a : Nat) (cls : Cls)
    (window lease : Nat) (s : State) : PortKept s (reserveAndOffer c x i a cls window lease s) := by
  refine PortKept.trans ?_ (send_portKept _ _ _)
  exact (changeEntry_portKept _ _ _ s).trans (setContext_portKept _ _ _)

theorem resolveTerms_portKept (c : CtxNum) (s : State) : PortKept s (resolveTerms c s) := by
  obtain ⟨_, hs⟩ | ⟨r, _, hs⟩ | hs | ⟨x, cls, a, i, t, _, _, _, hj, _, hs⟩ :=
    resolveTerms_cases c s <;> rw [hs]
  · exact PortKept.refl s
  · exact closeRefused_portKept _ _ _ s
  · exact (setPart_portKept _ s).trans (closeRefused_portKept _ _ _ _)
  · exact (joinEntry_portKept hj).trans (reserveAndOffer_portKept _ _ _ _ _ _ _ _)

theorem sendCheck_portKept (c : CtxNum) (x : Exchange) (tries a : Nat) (s : State) :
    PortKept s (sendCheck c x tries a s) := by
  refine PortKept.trans ?_ (handOver_portKept _ _ _ (by simp))
  exact PortKept.of_eq

theorem resolve_portKept (c : CtxNum) (s : State) : PortKept s (resolve c s) := by
  unfold resolve
  split
  · exact PortKept.refl s
  · split
    · exact sendCheck_portKept _ _ _ _ s
    · exact resolveTerms_portKept c s

theorem probeGone_portKept (i : Index) (s : State) : PortKept s (probeGone i s) := by
  unfold probeGone
  split
  · exact PortKept.refl s
  · exact resolveTerms_portKept _ s

end Contexts

/-! ### JOIN, EXTEND, AGREE and REPLY (spec/04, spec/05) -/

section Joining

variable {s : State}

theorem takeContext_portKept (c : CtxNum) (j : JoinFields) (caps : Caps) (target : Option Index)
    (probe : Bool) (s : State) : PortKept s (takeContext c j caps target probe s) := by
  have htaken (x : Exchange) (d : List Deferral) :
      PortKept s (count .joins { setContext c (some x) s with admission.deferrals := d }) :=
    PortKept.of_eq
  simp only [takeContext]
  split
  · exact (htaken _ _).trans (send_portKept _ _ _)
  · exact (htaken _ _).trans (resolve_portKept _ _)

theorem needContext_portKept (j : JoinFields) (caps : Caps) (target : Option Index) (probe : Bool)
    (s : State) : PortKept s (needContext j caps target probe s) := by
  unfold needContext
  split
  · exact refuse_portKept _ _ _ _ s
  · split
    · exact holdoff_portKept _ s
    · exact takeContext_portKept _ _ _ _ _ s

theorem grantExisting_portKept (x : Identity) (i : Index) (requested : Nat) (s : State) :
    PortKept s (grantExisting x i requested s) := by
  refine PortKept.trans ?_ (send_portKept _ _ _)
  exact (changeEntry_portKept _ _ _ s).trans (count_portKept _ _)

theorem joinMeetsEntry_portKept (j : JoinFields) (caps : Caps) (s : State) :
    PortKept s (joinMeetsEntry j caps s) := by
  unfold joinMeetsEntry
  split
  · exact needContext_portKept _ _ _ _ s
  · simp only []
    split
    · split
      · exact refuse_portKept _ _ _ _ s
      split
      · split
        · exact needContext_portKept _ _ _ _ s
        · exact grantExisting_portKept _ _ _ s
      · exact needContext_portKept _ _ _ _ s
    · exact needContext_portKept _ _ _ _ s

theorem admitJoin_portKept (j : JoinFields) (s : State) : PortKept s (admitJoin j s) := by
  unfold admitJoin
  split
  · exact (count_portKept _ s).trans (send_portKept _ _ _)
  · split
    · exact refuse_portKept _ _ _ _ s
    · exact joinMeetsEntry_portKept _ _ s

theorem repeatJoin_portKept (x : Exchange) (s : State) : PortKept s (repeatJoin x s) := by
  unfold repeatJoin
  split
  · exact send_portKept _ _ s
  · exact PortKept.refl s
  · exact send_portKept _ _ s

theorem takeJoin_portKept (r : Request) (s : State) : PortKept s (takeJoin r s) := by
  simp only [takeJoin]
  split
  · exact refuse_portKept _ _ _ _ s
  split
  · exact holdoff_portKept _ s
  split
  · exact refuse_portKept _ _ _ _ s
  split
  · exact admitJoin_portKept _ s
  · split
    · exact PortKept.refl s
    · split
      · exact repeatJoin_portKept _ s
      · exact (closeContext_portKept _ s).trans (admitJoin_portKept _ _)

theorem newPage_portKept (c : CtxNum) (x : Exchange) (turn : Nat) (more : Bool) (page : Option Page)
    (s : State) : PortKept s (newPage c x turn more page s) := by
  unfold newPage
  split
  · exact closeRefused_portKept _ _ _ s
  · split
    · exact closeRefused_portKept _ _ _ s
    · have hnoted (y : Exchange) :
          PortKept s (sendNoted x.identity turn (setContext c (some y) s)) :=
        (setContext_portKept _ _ s).trans (send_portKept _ _ _)
      simp only []
      split
      · exact hnoted _
      · exact (hnoted _).trans (resolve_portKept _ _)

theorem extendContext_portKept (c : CtxNum) (x : Exchange) (p : List Byte) (s : State) :
    PortKept s (extendContext c x p s) := by
  simp only [extendContext]
  split
  · split
    · exact newPage_portKept _ _ _ _ _ s
    split
    · exact send_portKept _ _ s
    · exact closeRefused_portKept _ _ _ s
  · split
    · exact PortKept.refl s
    · exact closeRefused_portKept _ _ _ s
  · split
    · exact send_portKept _ _ s
    · exact closeRefused_portKept _ _ _ s

theorem takeExtend_portKept (r : Request) (s : State) : PortKept s (takeExtend r s) := by
  simp only [takeExtend]
  split
  · exact refuse_portKept _ _ _ _ s
  split
  · exact refuse_portKept _ _ _ _ s
  split
  · exact refuse_portKept _ _ _ _ s
  · split
    · exact PortKept.refl s
    · exact extendContext_portKept _ _ _ s

theorem bindOffer_portKept (c : CtxNum) (x : Exchange) (o : Offer) (s : State) :
    PortKept s (bindOffer c x o s) := by
  simp only [bindOffer]
  split
  · refine PortKept.trans ?_ (send_portKept _ _ _)
    exact ((changeEntry_portKept _ _ _ s).trans (setContext_portKept _ _ _)).trans (count_portKept _ _)
  · exact (setContext_portKept _ _ s).then_refuse

theorem judgeAgree_portKept (c : CtxNum) (x : Exchange) (o : Offer) (p : List Byte) (s : State) :
    PortKept s (judgeAgree c x o p s) := by
  unfold judgeAgree
  split
  · exact (closeContext_portKept c s).trans (send_portKept _ _ _)
  split
  · exact closeRefused_portKept _ _ _ s
  split
  · exact closeRefused_portKept _ _ _ s
  · exact bindOffer_portKept _ _ _ s

theorem lateAgree_portKept (x : Identity) (p : List Byte) (s : State) :
    PortKept s (lateAgree x p s) := by
  unfold lateAgree
  split
  · exact refuse_portKept _ _ _ _ s
  · simp only []
    split
    · exact send_portKept _ _ s
    · exact refuse_portKept _ _ _ _ s

theorem takeAgree_portKept (r : Request) (s : State) : PortKept s (takeAgree r s) := by
  simp only [takeAgree]
  split
  · exact refuse_portKept _ _ _ _ s
  split
  · exact refuse_portKept _ _ _ _ s
  split
  · exact lateAgree_portKept _ _ s
  · split
    · exact PortKept.refl s
    · split
      · exact judgeAgree_portKept _ _ _ _ s
      · exact closeRefused_portKept _ _ _ s
      · exact closeRefused_portKept _ _ _ s

theorem rememberHolder_portKept (i : Index) (r : Option Superseded) (s : State) :
    PortKept s (rememberHolder i r s) := PortKept.of_eq rfl rfl rfl rfl rfl rfl rfl rfl

theorem judgeReply_portKept (i : Index) (c : CtxNum) (x : Exchange) (p : List Byte) (s : State) :
    PortKept s (judgeReply i c x p s) := by
  have hduplicate : PortKept s (probeDuplicate i c s) := by
    refine PortKept.trans ?_ (closeDuplicate_portKept _ _)
    exact PortKept.of_eq
  unfold judgeReply
  split
  · exact ((addCollision_portKept i s).trans (closeContext_portKept c _)).trans (holdoff_portKept _ _)
  split
  · exact hduplicate
  split
  · exact resolveTerms_portKept c s
  · exact hduplicate

theorem takeReply_portKept (r : Request) (s : State) : PortKept s (takeReply r s) := by
  unfold takeReply
  split
  · exact count_portKept _ s
  · split
    · refine PortKept.trans ?_ (count_portKept _ _)
      simp only [noteLateReply]
      split
      · exact rememberHolder_portKept _ _ s
      · exact PortKept.refl s
    · split
      · exact PortKept.refl s
      · exact judgeReply_portKept _ _ _ _ s

end Joining

/-! ### KEEP, LEAVE and FIND (spec/02, spec/06) -/

section Renewal

variable {s : State}

theorem forgetLoss_portKept (k : KeepFields) (s : State) : PortKept s (forgetLoss k s) :=
  PortKept.of_eq rfl rfl rfl rfl rfl rfl rfl rfl

theorem adopt_portKept (k : KeepFields) (source : Nat) (s : State) :
    PortKept s (adopt k source s) := by
  unfold adopt
  split
  · exact refuse_portKept _ _ _ _ s
  · split
    · exact refuse_portKept _ _ _ _ s
    · split
      · exact refuse_portKept _ _ _ _ s
      · split
        · exact (setPart_portKept _ s).then_refuse
        case h_2 hal =>
          refine (allocate_portKept hal).trans (PortKept.trans ?_ (send_portKept _ _ _))
          exact (changeEntry_portKept _ _ _ _).trans (count_portKept _ _)

theorem keepDuplicates_portKept (i : Index) (c : CtxNum) (k : KeepFields) (source : Nat) (s : State) :
    PortKept s (keepDuplicates i c k source s) := by
  refine PortKept.trans (PortKept.trans ?_ (send_portKept _ _ _)) (closeDuplicate_portKept _ _)
  exact (changeEntry_portKept _ _ _ s).trans (count_portKept _ _)

theorem keepRejoins_portKept (i : Index) (k : KeepFields) (late : Bool) (source : Nat) (s : State) :
    PortKept s (keepRejoins i k late source s) := by
  unfold keepRejoins
  split
  · exact refuse_portKept _ _ _ _ s
  · simp only []
    split
    · exact (refuse_portKept _ _ _ _ s).trans (resolveTerms_portKept _ _)
    · exact refuse_portKept _ _ _ _ s

theorem keepLive_portKept (i : Index) (k : KeepFields) (late : Bool) (source : Nat) (s : State) :
    PortKept s (keepLive i k late source s) := by
  simp only [keepLive]
  split
  · exact (addCollision_portKept i s).then_refuse
  split
  · exact (count_portKept _ s).trans (send_portKept _ _ _)
  split
  · exact keepRejoins_portKept _ _ _ _ s
  split
  · refine PortKept.trans ?_ (send_portKept _ _ _)
    exact (changeEntry_portKept _ _ _ s).trans (count_portKept _ _)
  · exact keepDuplicates_portKept _ _ _ _ s

theorem takeKeep_portKept (r : Request) (s : State) : PortKept s (takeKeep r s) := by
  refine (forgetLoss_portKept (readKeep r.payload) s).trans ?_
  simp only [takeKeep]
  split
  · split
    · exact adopt_portKept _ _ _
    · exact refuse_portKept _ _ _ _ _
  · split
    · exact keepLive_portKept _ _ _ _ _
    · exact keepLive_portKept _ _ _ _ _
    · split <;> exact refuse_portKept _ _ _ _ _
    · exact refuse_portKept _ _ _ _ _
    · exact PortKept.refl _

theorem takeLeave_portKept (r : Request) (s : State) : PortKept s (takeLeave r s) := by
  simp only [takeLeave]
  split
  · exact refuse_portKept _ _ _ _ s
  · split
    · exact ((holdEntry_portKept _ _ s).trans (send_portKept _ _ _)).trans (probeGone_portKept _ _)
    · split
      · exact send_portKept _ _ s
      · exact refuse_portKept _ _ _ _ s

theorem takeFind_portKept (r : Request) (s : State) : PortKept s (takeFind r s) := by
  unfold takeFind
  split
  · refine PortKept.trans ?_ (arbitrate_portKept _)
    exact PortKept.of_eq
  · exact (count_portKept _ s).trans (send_portKept _ _ _)

/-- A walk of a FIND is none of the host's (R107). -/
theorem busWalk_portKept {q : FindRequest} {i : Index} {found : List FoundRecord}
    (hw : s.lookup.walk = some (.bus q i found)) (v : Option Walk)
    (hv : hostWalking { s with lookup.walk := v } = false) :
    PortKept s { s with lookup.walk := v } := by
  have hwalking : hostWalking s = false := by rw [hostWalking, hw]
  refine ⟨id, fun w h => h.with_lookup ?_ ?_⟩
  · rw [hv, hwalking]
  · rw [hv, Bool.and_false]

theorem examineBus_portKept {q : FindRequest} {i : Index} {found : List FoundRecord}
    (hw : s.lookup.walk = some (.bus q i found)) : PortKept s (examineBus q i found s) := by
  simp only [examineBus]
  split
  · exact ((busWalk_portKept hw none rfl).trans (send_portKept _ _ _)).trans (arbitrate_portKept _)
  · exact busWalk_portKept hw _ rfl

end Renewal

/-! ### The observer, the receiver and the clocks (spec/05, spec/07, spec/02) -/

section Events

variable {s t : State}

theorem learn_portKept (a : Nat) (s : State) : PortKept s (learn a s) := by
  unfold learn
  split
  · exact setPart_portKept _ s
  · exact changeEntry_portKept _ _ _ s

theorem learnIfOn_portKept (a : Nat) (s : State) : PortKept s (learnIfOn a s) := by
  unfold learnIfOn
  split
  · exact learn_portKept a s
  · exact PortKept.refl s

theorem reportLive_portKept (i : Index) (s : State) : PortKept s (reportLive i s) := by
  simp only [reportLive]
  split
  · exact changeEntry_portKept _ _ _ s
  · split
    · exact addCollision_portKept i s
    · exact PortKept.refl s
  · exact addCollision_portKept i s
  · exact addCollision_portKept i s
  · exact PortKept.refl s

theorem reportClear_portKept (a : Nat) (s : State) : PortKept s (reportClear a s) := by
  unfold reportClear
  split
  · exact learnIfOn_portKept a s
  · split
    · exact PortKept.refl s
    · refine PortKept.trans ?_ (learnIfOn_portKept a _)
      split
      · exact closeUnasked_portKept _ _ s
      · exact PortKept.of_eq
    · exact reportLive_portKept _ s
    · exact reportLive_portKept _ s
    · unfold reportHeld
      split
      · exact (freeEntry_portKept _ s).trans (learn_portKept a _)
      · exact PortKept.refl s

theorem reportSet_portKept (a : Nat) (s : State) : PortKept s (reportSet a s) := by
  unfold reportSet
  split
  · exact PortKept.refl s
  · split
    · exact count_portKept _ s
    · split
      · exact count_portKept _ s
      · exact PortKept.refl s

theorem observe_portKept (source : Nat) (bound : Bool) (s : State) :
    PortKept s (observe source bound s) := by
  unfold observe
  split
  · split
    · exact reportSet_portKept _ s
    · exact reportClear_portKept _ s
  · exact PortKept.refl s

/-- A request is buffered while there is room (R123). -/
theorem offerRequest_portKept (r : Request) (s : State) : PortKept s (offerRequest r s) := by
  unfold offerRequest
  split
  case isTrue hroom =>
    refine ⟨fun ⟨hidle, hlen, _, hsurv, hoff⟩ => ⟨hidle, hlen, ?_, hsurv, hoff⟩,
      fun _ h => EngineOwes.congr h rfl rfl rfl rfl⟩
    simpa using Nat.succ_le_of_lt hroom
  case isFalse => exact (count_portKept _ s).trans (setPart_portKept _ _)

theorem classify_portKept (m : Heard) (s : State) : PortKept s (classify m s) := by
  unfold classify
  split
  · exact count_portKept _ s
  · split
    · exact count_portKept _ s
    · split
      · unfold takeRequest
        split
        · exact offerRequest_portKept _ s
        · exact refuse_portKept _ _ _ _ s
      · exact PortKept.refl s

theorem takeValid_portKept (m : Heard) (s : State) : PortKept s (takeValid m s) := by
  have hrefresh : PortKept s (refreshAlive s) := PortKept.of_eq
  simp only [takeValid]
  split
  · exact hrefresh
  · exact (hrefresh.trans (observe_portKept _ _ _)).trans (classify_portKept _ _)

theorem carrierFalls_portKept (s : State) : PortKept s (carrierFalls s) := by
  simp only [carrierFalls]
  split <;> exact PortKept.of_eq

theorem receiveMessage_portKept {bytes : List Byte} {extra : Nat}
    (ht : execReceiveMessage bytes extra s = .next t) : PortKept s t := by
  cases ht
  split
  · split
    · exact carrierFalls_portKept s
    · exact (carrierFalls_portKept s).trans (count_portKept _ _)
  · split
    · exact (carrierFalls_portKept s).trans (takeValid_portKept _ _)
    split
    · exact carrierFalls_portKept s
    · exact (carrierFalls_portKept s).trans (takeValid_portKept _ _)

theorem tickSettle_portKept (s : State) : PortKept s (tickSettle s) := by
  unfold tickSettle
  split
  · split
    · exact PortKept.refl s
    · split <;> exact PortKept.of_eq
  · exact PortKept.refl s

theorem leaseTick_portKept (ht : execLeaseTick s = .next t) : PortKept s t := by
  cases ht
  split
  · exact PortKept.refl s
  · refine PortKept.trans ?_ (tickSettle_portKept _)
    exact PortKept.of_eq rfl rfl rfl rfl rfl rfl rfl rfl

theorem expiryEvent_portKept {own : Entry → Bool} {expire : Index → State → State} {i : Index}
    (h : ∀ u, PortKept u (expire i u)) : PortKept s (expiryEvent own expire i s) := by
  have howed : PortKept s (takeOwed i s) := PortKept.of_eq
  obtain hs | ⟨_, _, hs⟩ | ⟨_, _, _, hs⟩ | ⟨_, _, _, _, hs⟩ := expiryEvent_cases own expire i s <;>
    rw [hs]
  · exact PortKept.refl s
  · exact howed
  · refine howed.trans ?_
    exact PortKept.of_eq
  · exact howed.trans (h _)

theorem holdExpired_portKept (i : Index) (s : State) :
    PortKept s (probeGone i (holdEntry .expired i s)) :=
  (holdEntry_portKept _ i s).trans (probeGone_portKept i _)

theorem expireBound_portKept (i : Index) (s : State) : PortKept s (expireBound i s) := by
  simp only [expireBound]
  split
  · exact (count_portKept _ s).trans (holdExpired_portKept i _)
  · exact (count_portKept _ s).trans (changeEntry_portKept _ _ _ _)

/-- A phase other than OFFLINE is entered (R137). -/
theorem enterPhase_portKept {r : Phase} (h : r ≠ .offline) (s : State) :
    PortKept s (enterPhase r s) :=
  ⟨fun ⟨hidle, hlen, hin, hsurv, _⟩ => ⟨hidle, hlen, hin, hsurv, fun ho => absurd ho h⟩,
    fun _ h => EngineOwes.congr h rfl rfl rfl rfl⟩

theorem settleExpiry_portKept (ht : execSettleExpiry s = .next t) : PortKept s t := by
  cases ht
  split
  · refine PortKept.trans ?_ (enterPhase_portKept (r := .active) nofun _)
    exact PortKept.of_eq
  · exact PortKept.refl s

theorem pageExpires_portKept (c : CtxNum) (s : State) : PortKept s (pageExpires c s) := by
  unfold pageExpires
  split
  · exact PortKept.refl s
  · split
    · exact (advanceTo_portKept _ s).trans (closeUnasked_portKept _ _ _)
    · exact PortKept.refl s
    · exact PortKept.refl s

theorem agreeExpires_portKept (c : CtxNum) (s : State) : PortKept s (agreeExpires c s) := by
  unfold agreeExpires
  split
  · exact PortKept.refl s
  · split
    · exact (advanceTo_portKept _ s).trans (closeUnasked_portKept _ _ _)
    · exact PortKept.refl s
    · exact PortKept.refl s

theorem goneUnanswered_portKept (c : CtxNum) (x : Exchange) (s : State) :
    PortKept s (goneUnanswered c x s) := by
  have hr := resolveTerms_portKept c s
  unfold goneUnanswered
  split
  · exact hr
  · unfold noteSuperseded
    split
    · exact hr
    · split
      · exact hr.trans (rememberHolder_portKept _ _ _)
      · exact hr

theorem probeExpires_portKept (c : CtxNum) (s : State) : PortKept s (probeExpires c s) := by
  unfold probeExpires
  split
  · exact PortKept.refl s
  · split
    · simp only []
      split
      · split
        · exact (advanceTo_portKept _ s).trans (sendCheck_portKept _ _ _ _ _)
        · exact (advanceTo_portKept _ s).trans (goneUnanswered_portKept _ _ _)
      · exact (advanceTo_portKept _ s).trans (goneUnanswered_portKept _ _ _)
    · exact PortKept.refl s
    · exact PortKept.refl s
    · exact PortKept.refl s

theorem silenceTimerExpiry_portKept (ht : execSilenceTimerExpiry s = .next t) : PortKept s t := by
  cases ht
  split
  · exact PortKept.refl s
  · exact PortKept.of_eq

end Events

end Sys2Proof.Machine
end

section
/-! What the commands of the host and the transmitter do to the segment port and the engine, and that every
step keeps both (R123, R125, R134, R164). -/

namespace Sys2Proof.Machine

-- One lemma is elaborated after another, which keeps the check's memory low.
set_option Elab.async false

/-- The port and the engine are sound. -/
def PortEngine (s : State) : Prop := PortSound s ∧ EngineSound s

/-- The command taken is about to be carried out. -/
def HostTurn (s : State) : Prop := PortSound s ∧ EngineTurn True s

section Turn

variable {s t : State}

theorem PortEngine.next (h : PortEngine s) (hk : PortKept s t) : PortEngine t :=
  ⟨hk.port h.1, engineSound_iff.2 (hk.engine False (engineSound_iff.1 h.2))⟩

theorem HostTurn.next (h : HostTurn s) (hk : PortKept s t) : HostTurn t :=
  ⟨hk.port h.1, hk.engine True h.2⟩

/-- A command to be carried out is in hand, and no message of the queue is waited for. -/
theorem EngineTurn.inHand (he : EngineTurn True s) :
    (∃ r, s.host.engine = .executing r ∧ r.work = .atOnce) ∧ engineWaits s = 0
      ∧ s.port.surviving = false ∧ s.lookup.hostSlot = none ∧ hostWalking s = false := by
  have hwork := he.atOnce.2 trivial
  refine ⟨?_, ?_, ?_, ?_⟩
  · cases hc : s.host.engine with
    | executing r => exact ⟨r, rfl, Option.some.inj ((workInHand_executing hc).symm.trans hwork)⟩
    | idle => rw [workInHand, hc] at hwork; exact nomatch hwork
    | done r => rw [workInHand, hc] at hwork; exact nomatch hwork
  · rw [he.waits, noticeInHand, hwork]
    rfl
  · have ha := he.attempt
    rw [hwork] at ha
    simpa using ha
  · have hl := he.walk
    rw [hwork] at hl
    simpa using hl

theorem HostTurn.finish (h : HostTurn s) (st : Status) (d : List Byte) : PortEngine (finish st d s) := by
  obtain ⟨⟨r, hr, hw⟩, hn, _⟩ := h.2.inHand
  refine ⟨h.1.congr (by simp) (by simp), engineSound_iff.2 ?_⟩
  refine h.2.finished hr (by rw [hw]; nofun) (by rw [hw]; nofun) ?_ st d
  rw [← hn]
  simp [engineWaits]

theorem HostTurn.then_finish {st : Status} {d : List Byte} (h : HostTurn s) (hk : PortKept s t) :
    PortEngine (Machine.finish st d t) := (h.next hk).finish st d

theorem waitFor_executing {r : CommandRecord} (h : s.host.engine = .executing r) (w : Work) :
    waitFor w s = { s with host.engine := .executing { r with work := w } } := by
  rw [waitFor, h]

end Turn

/-! ### Commands that complete at once -/

section AtOnce

variable {p : List Byte} {s : State}

theorem filterPut_portEngine (h : HostTurn s) : PortEngine (filterPut p s) := by
  simp only [filterPut]
  split
  · exact h.finish _ _
  · split
    · exact h.finish _ _
    split
    · exact h.finish _ _
    · exact h.then_finish PortKept.of_eq

theorem filterRemove_portEngine (h : HostTurn s) : PortEngine (filterRemove p s) := by
  simp only [filterRemove]
  split
  · exact h.finish _ _
  · exact h.then_finish PortKept.of_eq

theorem filterRead_portEngine (h : HostTurn s) : PortEngine (filterRead p s) := by
  simp only [filterRead]
  split <;> exact h.finish _ _

theorem readDeferrals_portEngine (h : HostTurn s) : PortEngine (readDeferrals p s) := by
  simp only [readDeferrals]
  split <;> exact h.finish _ _

theorem configure_portEngine (h : HostTurn s) : PortEngine (configure p s) := by
  simp only [configure]
  split
  · exact h.finish _ _
  split
  · exact h.finish _ _
  split
  · exact h.finish _ _
  split
  · exact h.then_finish PortKept.of_eq
  · exact h.then_finish PortKept.of_eq

theorem readParameter_portEngine (h : HostTurn s) : PortEngine (readParameter p s) := by
  unfold readParameter
  split <;> exact h.finish _ _

theorem readEntry_portEngine (h : HostTurn s) : PortEngine (readEntry p s) := by
  unfold readEntry
  split <;> exact h.finish _ _

theorem findAddress_portEngine (h : HostTurn s) : PortEngine (findAddress p s) := by
  simp only [findAddress]
  split
  · exact h.finish _ _
  · split <;> exact h.finish _ _

theorem readContext_portEngine (h : HostTurn s) : PortEngine (readContext p s) := by
  simp only [readContext]
  split <;> exact h.finish _ _

theorem nextChange_portEngine (h : HostTurn s) : PortEngine (nextChange s) := by
  unfold nextChange
  split
  · exact h.then_finish PortKept.of_eq
  · split
    · exact h.finish _ _
    · exact h.then_finish PortKept.of_eq

theorem readCounters_portEngine (h : HostTurn s) : PortEngine (readCounters p s) := by
  unfold readCounters
  split
  · exact h.finish _ _
  · refine h.then_finish ?_
    split
    · exact PortKept.of_eq
    · exact PortKept.refl s

theorem interruptSetup_portEngine (h : HostTurn s) : PortEngine (interruptSetup p s) := by
  unfold interruptSetup
  split
  · exact h.finish _ _
  · simp only []
    split
    · exact h.then_finish PortKept.of_eq
    · exact h.finish _ _

theorem startPart_portKept (s : State) : PortKept s (startPart s) := by
  simp only [startPart]
  split
  · refine PortKept.trans ?_ (enterPhase_portKept (r := .active) nofun _)
    exact PortKept.of_eq
  · refine PortKept.trans ?_ (enterPhase_portKept (r := .settling) nofun _)
    exact PortKept.of_eq

theorem enable_portEngine (h : HostTurn s) : PortEngine (enable s) := by
  unfold enable
  split
  · exact h.then_finish (startPart_portKept s)
  · exact h.finish _ _

theorem closeCollecting_portKept (s : State) : PortKept s (closeCollecting s) := by
  have hstep (c : CtxNum) (s : State) :
      PortKept s (if collectingNow s c then closeUnasked c .suspended s else s) := by
    split
    · exact closeUnasked_portKept _ _ s
    · exact PortKept.refl s
  unfold closeCollecting
  induction List.finRange 8 generalizing s with
  | nil => exact PortKept.refl s
  | cons c l ih => exact (hstep c s).trans (ih _)

theorem suspend_portEngine (h : HostTurn s) : PortEngine (suspend s) := by
  unfold suspend
  split
  · exact h.then_finish ((enterPhase_portKept (r := .suspended) nofun s).trans (closeCollecting_portKept _))
  · exact h.finish _ _

theorem resume_portEngine (h : HostTurn s) : PortEngine (resume s) := by
  unfold resume
  split
  · exact h.then_finish (enterPhase_portKept (r := .active) nofun s)
  · exact h.finish _ _

theorem addStatic_portEngine (h : HostTurn s) : PortEngine (addStatic p s) := by
  unfold addStatic
  split
  · exact h.finish _ _
  · split
    · exact h.finish _ _
    split
    · exact h.finish _ _
    split
    · exact h.then_finish (setPart_portKept _ s)
    case h_2 hal => exact h.then_finish ((allocate_portKept hal).trans (changeEntry_portKept _ _ _ _))

theorem confirmKeep_portEngine (h : HostTurn s) : PortEngine (confirmKeep p s) := by
  unfold confirmKeep
  split
  · exact h.finish _ _
  · simp only []
    split
    · exact h.finish _ _
    split
    · exact h.finish _ _
    split
    · exact h.finish _ _
    · exact h.then_finish (changeEntry_portKept _ _ _ s)

theorem flush_portEngine (h : HostTurn s) : PortEngine (flush s) := by
  unfold flush
  split
  · exact h.finish _ _
  · refine h.then_finish ?_
    obtain ⟨table, causes, hf⟩ := freeAll_frame { s with admission.deferrals := [] }
    rw [hf]
    exact PortKept.of_eq

end AtOnce

/-! ### Commands that wait for a notice or a walk (R164) -/

section Waiting

variable {p : List Byte} {s : State}

/-- A command that hands its notice over waits for it, unless the notice is dropped at once. -/
theorem HostTurn.hand_notice (h : HostTurn s) (i : Index) (g : Word16) (d : Nat) (a : Answer) :
    PortEngine (handOver d a [.engine] (waitFor (.notice i g) s)) := by
  obtain ⟨⟨r, hr, _⟩, hn, hsurv, hslot, hwalk⟩ := h.2.inHand
  rw [waitFor_executing hr]
  refine ⟨handOver_portSound _ _ _ (h.1.congr rfl rfl), engineSound_iff.2 (handOver_engineTurn _ _ ?_)⟩
  refine ⟨iff_false_intro nofun, ?_, iff_of_false nofun ?_, iff_of_false nofun ?_, h.2.apart,
    fun reply hread => ?_⟩
  · change 1 + engineWaits s = 1
    rw [hn]
  · simp [hsurv]
  · simp [hslot, hostWalking] at hwalk ⊢
    exact hwalk
  · obtain ⟨_, hdone, _⟩ := h.2.reading reply hread
    exact absurd (hr.symm.trans hdone) nofun

theorem edit_portEngine (h : HostTurn s) : PortEngine (edit p s) := by
  unfold edit
  split
  · exact h.finish _ _
  case h_2 x hx =>
    simp only []
    split
    · exact h.finish _ _
    split
    · exact h.finish _ _
    split
    · exact h.finish _ _
    split
    · exact h.finish _ _
    have happly : HostTurn (applyEdit x s) := h.next (changeEntry_portKept _ _ _ s)
    split
    · exact happly.hand_notice _ _ _ _
    · exact happly.finish _ _

theorem afterEnding_portEngine {i : Index} {notify : Bool} {old : Entry} {reason : RevokeReason}
    (h : HostTurn s) : PortEngine (afterEnding i notify old reason s) := by
  simp only [afterEnding]
  split
  · exact (h.hand_notice _ _ _ _).next (probeGone_portKept _ _)
  · exact (h.finish _ _).next (probeGone_portKept _ _)

theorem endBinding_portKept (cause : HeldCause) (i : Index) (s : State) :
    PortKept s (endBinding cause i s) := PortKept.of_eq

theorem revoke_portEngine (h : HostTurn s) : PortEngine (revoke p s) := by
  unfold revoke
  split
  · exact h.finish _ _
  · simp only []
    split
    · exact h.finish _ _
    split
    · exact h.finish _ _
    split
    · exact h.finish _ _
    · refine afterEnding_portEngine (h.next ?_)
      split
      · exact freeEntry_portKept _ s
      · exact endBinding_portKept _ _ s

theorem confirmEvict_portEngine (h : HostTurn s) : PortEngine (confirmEvict p s) := by
  unfold confirmEvict
  split
  · exact h.finish _ _
  · simp only []
    split
    · exact h.finish _ _
    split
    · exact h.finish _ _
    split
    · exact h.finish _ _
    split
    · exact h.finish _ _
    · exact afterEnding_portEngine (h.next (endBinding_portKept _ _ s))

theorem lookup_portEngine (h : HostTurn s) : PortEngine (lookup p s) := by
  unfold lookup
  split
  · exact h.finish _ _
  · obtain ⟨⟨r, hr, _⟩, hn, hsurv, hslot, hwalk⟩ := h.2.inHand
    refine PortEngine.next ?_ (arbitrate_portKept _)
    rw [waitFor_executing hr]
    refine ⟨h.1.congr rfl rfl, engineSound_iff.2 ⟨iff_false_intro nofun, hn, iff_of_false nofun ?_,
      iff_of_true rfl rfl, ?_, fun reply hread => ?_⟩⟩
    · simp [hsurv]
    · exact hwalk
    · obtain ⟨_, hdone, _⟩ := h.2.reading reply hread
      exact absurd (hr.symm.trans hdone) nofun

end Waiting

/-! ### Teardown (R118, R134, R135, R142, R183) -/

section Teardown

variable {s : State}

theorem closeAll_portKept (s : State) : PortKept s (closeAll s) := by
  unfold closeAll
  induction List.finRange 8 generalizing s with
  | nil => exact PortKept.refl s
  | cons c l ih => exact (closeContext_portKept c s).trans (ih _)

theorem purgeLookups_portKept (s : State) : PortKept s (purgeLookups s) := by
  have hemptied : PortKept s { s with lookup.busWaiting := [] } := PortKept.of_eq
  simp only [purgeLookups]
  split
  case h_1 hw =>
    have hended := busWalk_portKept (s := { s with lookup.busWaiting := [] }) hw none rfl
    exact (hemptied.trans hended).trans (arbitrate_portKept _)
  · exact hemptied
  · exact hemptied

theorem closeAll_port (s : State) : (closeAll s).port = s.port := by
  unfold closeAll
  induction List.finRange 8 generalizing s with
  | nil => rfl
  | cons c l ih => exact (ih _).trans (closeContext_port c s)

theorem purgeLookups_port (s : State) : (purgeLookups s).port = s.port := by
  simp only [purgeLookups]
  split
  · rw [arbitrate_eq_lookup]
  · rfl
  · rfl

/-- The engine is told of nothing where it is no waiter. -/
theorem reportAll_host {o : NoticeOutcome} {ws : List Waiter} (h : ws.count .engine = 0) (s : State) :
    (reportAll o ws s).host = s.host := by
  induction ws generalizing s with
  | nil => rfl
  | cons v ws ih =>
    rw [List.count_eq_zero, List.mem_cons, not_or] at h
    obtain ⟨hv, hws⟩ := h
    refine (ih (List.count_eq_zero.2 hws) (reportTo o v s)).trans ?_
    obtain hs | ⟨_, _, _, _, _, _, _, hs⟩ | ⟨_, _, _, he, _⟩ := reportTo_cases o v s
    · rw [hs]
    · rw [hs]
      rfl
    · exact absurd he.symm hv

theorem count_waitersOf_sublist {l l' : List QueuedMessage} (h : l'.Sublist l)
    (hl : (waitersOf l).count .engine = 0) : (waitersOf l').count .engine = 0 := by
  rw [List.count_eq_zero] at hl ⊢
  intro hmem
  obtain ⟨ws, hws, he⟩ := List.mem_flatten.1 hmem
  exact hl (List.mem_flatten.2 ⟨ws, (h.map _).subset hws, he⟩)

/-- An attempt under way survives the teardown, whose command waits for its end (R134, R164). -/
theorem teardown_survived {u : State} (hq : u.port.tx = .idle ↔ u.port.queue = [])
    (he : EngineTurn True u) (ha : attemptUnderWay u = true) (data : State → List Byte) :
    PortEngine (finishTearDown data (purgePort u)) := by
  obtain ⟨⟨r, hr, _⟩, hn, _, hslot, hwalk⟩ := he.inHand
  have ht : purgePort u = reportAll .dropped (waitersOf u.port.queue.tail)
      { u with port.inbound := [], port.queue := u.port.queue.take 1, port.surviving := true } := by
    rw [purgePort, if_pos ha]
  have hhost : (purgePort u).host = u.host := by
    rw [ht]
    exact reportAll_host (count_waitersOf_sublist (List.tail_sublist _) hn) _
  have hlookup : (purgePort u).lookup = u.lookup := by
    rw [ht]
    simp
  have hport : (purgePort u).port =
      { u.port with inbound := [], queue := u.port.queue.take 1, surviving := true } := by
    rw [ht]
    simp
  have hunder : attemptUnderWay (purgePort u) = true := by
    simpa [attemptUnderWay, hport] using ha
  generalize purgePort u = t at hhost hlookup hport hunder ⊢
  have hne : t.port.tx ≠ .idle := fun htx => by
    rw [attemptUnderWay, htx] at hunder
    exact nomatch hunder
  have hone : t.port.queue.length = 1 := by
    have hqne : u.port.queue ≠ [] := fun hnil => hne (by rw [hport]; exact hq.2 hnil)
    rw [hport]
    exact (List.length_take ..).trans (Nat.min_eq_left (List.length_pos_of_ne_nil hqne))
  rw [finishTearDown, if_pos hunder, waitFor_executing (hhost ▸ hr)]
  refine ⟨⟨iff_of_false hne fun hnil => ?_, ?_, by simp [hport], fun _ => hunder, fun _ => .inr ⟨?_, hone⟩⟩,
    engineSound_iff.2 ⟨iff_false_intro nofun, ?_, iff_of_true rfl (by simp [hport]),
      iff_of_false nofun ?_, ?_, fun reply hread => ?_⟩⟩
  · exact absurd (hone.symm.trans (congrArg List.length hnil)) nofun
  · exact hone ▸ (by decide)
  · simp [hport]
  · change (waitersOf t.port.queue).count .engine = 0
    rw [hport]
    exact count_waitersOf_sublist (List.take_sublist 1 _) hn
  · simpa [hlookup, hslot, hostWalking] using hwalk
  · simp [hlookup, hslot]
  · obtain ⟨_, hdone, _⟩ := he.reading reply (by rw [← hhost]; exact hread)
    exact absurd (hr.symm.trans hdone) nofun

/-- Without an attempt under way the queue is emptied and the command completes (R134). -/
theorem teardown_completed {u : State} (he : EngineTurn True u) (ha : attemptUnderWay u = false)
    (hsurv : u.port.surviving = false) (data : State → List Byte) :
    PortEngine (finishTearDown data (purgePort u)) := by
  obtain ⟨_, hn, _⟩ := he.inHand
  have ht : purgePort u = reportAll .dropped (waitersOf u.port.queue)
      { u with port.inbound := [], port.queue := [], port.tx := .idle } := by
    rw [purgePort, if_neg (by simp [ha])]
  have hturn : HostTurn (purgePort u) := by
    rw [ht]
    refine ⟨PortSound.after_reportAll ?_ _ _, ?_⟩
    · exact ⟨iff_of_true rfl rfl, Nat.zero_le _, Nat.zero_le _,
        fun hs => absurd (hsurv.symm.trans hs) nofun, fun _ => .inl rfl⟩
    · have hw : engineWaits (reportAll .dropped (waitersOf u.port.queue)
          { u with port.inbound := [], port.queue := [], port.tx := .idle }) = 0 := by
        simp [engineWaits, waitersOf]
      rw [EngineTurn, hw]
      refine EngineOwes.after_reportAll ?_ _
      exact he.congr rfl rfl rfl rfl
  have hidle : attemptUnderWay (purgePort u) = false := by
    rw [ht]
    simp [attemptUnderWay]
  rw [finishTearDown, if_neg (by simp [hidle])]
  exact hturn.finish _ _

theorem tearDown_portEngine (hq : s.port.tx = .idle ↔ s.port.queue = []) (he : EngineTurn True s)
    (hsurv : s.port.surviving = false) (data : State → List Byte) :
    PortEngine (finishTearDown data (tearDown s)) := by
  have hclosed := closeAll_portKept s
  have hclosedPort := closeAll_port s
  simp only [tearDown]
  generalize closeAll s = v at hclosed hclosedPort ⊢
  have hk : PortKept v (purgeLookups { v with admission.deferrals := [] }) := by
    refine PortKept.trans ?_ (purgeLookups_portKept _)
    exact PortKept.of_eq
  have hport : (purgeLookups { v with admission.deferrals := [] }).port = s.port :=
    (purgeLookups_port _).trans hclosedPort
  have hu := (hclosed.trans hk).engine True he
  generalize purgeLookups { v with admission.deferrals := [] } = u at hport hu ⊢
  rw [← hport] at hq hsurv
  cases ha : attemptUnderWay u with
  | true => exact teardown_survived hq hu ha data
  | false => exact teardown_completed hu ha hsurv data

theorem disable_portEngine (h : HostTurn s) : PortEngine (disable s) := by
  unfold disable
  split
  · exact h.finish _ _
  · obtain ⟨_, _, hsurv, _⟩ := h.2.inHand
    obtain ⟨hq, _⟩ := id h.1
    have hturn : EngineTurn True (stopClock (enterPhase .offline
        { s with phase.settle := none, phase.settleOwed := false })) :=
      EngineOwes.congr h.2 rfl rfl rfl rfl
    refine tearDown_portEngine ?_ hturn ?_ phaseData
    · exact hq
    · exact hsurv

theorem portRestart_portEngine (h : HostTurn s) :
    PortEngine (finishTearDown (fun _ => []) (tearDown s)) := by
  obtain ⟨_, _, hsurv, _⟩ := h.2.inHand
  exact tearDown_portEngine h.1.1 h.2 hsurv _

end Teardown

end Sys2Proof.Machine
end

section
/-! The taking of commands and transactions, the host's walk and the transmitter, and that every step keeps
the port and the engine sound (R123, R125, R129, R134, R163 to R167). -/

namespace Sys2Proof.Machine

-- One lemma is elaborated after another, which keeps the check's memory low.
set_option Elab.async false

/-! ### The host port (R161 to R167) -/

section Host

variable {s t : State}

/-- An engine that is not EXECUTING waits for nothing. -/
theorem EngineSound.waits_for_nothing (h : EngineSound s) (hw : workInHand s = none) :
    engineWaits s = 0 ∧ s.port.surviving = false ∧ s.lookup.hostSlot = none ∧ hostWalking s = false := by
  obtain ⟨_, hn, he, hk, _, _⟩ := h
  rw [hw] at he hk
  refine ⟨by rw [hn, noticeInHand, hw]; rfl, by simpa using he, ?_⟩
  simpa using hk

theorem workInHand_not_executing (h : ∀ c, s.host.engine ≠ .executing c) : workInHand s = none := by
  unfold workInHand
  split
  case h_1 hc => exact absurd hc (h _)
  all_goals rfl

theorem accept_hostTurn (f : CommandFrame) (h : PortEngine s) (hn : ∀ c, s.host.engine ≠ .executing c) :
    HostTurn (accept f s) := by
  obtain ⟨hp, he⟩ := h
  obtain ⟨hw, hsurv, hslot, hwalk⟩ := he.waits_for_nothing (workInHand_not_executing hn)
  refine ⟨hp.congr rfl rfl, ⟨iff_of_true rfl trivial, hw, iff_of_false nofun ?_, iff_of_false nofun ?_,
    ?_, nofun⟩⟩
  · simp [hsurv]
  · simpa [hslot, hostWalking] using hwalk
  · simp [hslot]

/-- What the engine and the queue wait for does not depend on the transaction; what is read does. -/
theorem PortEngine.with_transaction {g : HostPort} (h : PortEngine s) (hg : g.engine = s.host.engine)
    (hr : ∀ reply, g.transaction = .result reply true → ∃ r, s.host.engine = .done r ∧ reply = r.bytes) :
    PortEngine { s with host := g } := by
  obtain ⟨hp, he⟩ := h
  obtain ⟨ha, hn, hat, hk, hb, _⟩ := engineSound_iff.1 he
  have hwork : workInHand { s with host := g } = workInHand s := by
    rw [workInHand, hg]
    rfl
  have hnotice : noticeInHand { s with host := g } = noticeInHand s := by
    rw [noticeInHand, hwork]
    rfl
  refine ⟨hp.congr rfl rfl, engineSound_iff.2 ⟨by rwa [hwork], ?_, by rwa [hwork], by rwa [hwork], hb,
    fun reply ht => ?_⟩⟩
  · rw [hnotice]
    exact hn
  · obtain ⟨r, hd, hb⟩ := hr reply ht
    exact ⟨r, hg.trans hd, hb⟩

theorem takeCommand_portEngine {code : Byte} {suits : Nat → Bool} {body : List Byte → State → State}
    {f : CommandFrame} (h : PortEngine s) (hb : ∀ u, HostTurn u → PortEngine (body f.params u)) :
    PortEngine (takeCommand code suits f body s) := by
  obtain ⟨_, hs⟩ | ⟨_, _, _, hs⟩ | ⟨_, hn, _, hs⟩ | ⟨_, hn, _, hs⟩ :=
    takeCommand_cases code suits f body s <;> rw [hs]
  · exact h.with_transaction rfl nofun
  · exact h.with_transaction rfl nofun
  · exact (accept_hostTurn f h hn).finish _ _
  · exact hb _ (accept_hostTurn f h hn)

theorem takeTransaction_portEngine {own : State → State} (h : PortEngine s) (ho : PortEngine (own s)) :
    PortEngine (takeTransaction own s) := by
  obtain ⟨_, hs⟩ | ⟨_, hs⟩ := takeTransaction_cases own s <;> rw [hs]
  · exact h
  · exact ho

theorem fixReply_portEngine (h : PortEngine s) : PortEngine (fixReply s) := by
  unfold fixReply
  split
  case h_1 r hr =>
    refine h.with_transaction rfl fun reply ht => ⟨r, hr, ?_⟩
    cases ht
    rfl
  · exact h.with_transaction rfl nofun
  · exact h.with_transaction rfl nofun

theorem takeStatus_portEngine (h : PortEngine s) : PortEngine (takeStatus s) := by
  have hf : PortKept { s with host := (takeStatus s).host } (takeStatus s) :=
    PortKept.of_eq rfl rfl rfl rfl rfl rfl rfl rfl
  exact (h.with_transaction (g := (takeStatus s).host) rfl nofun).next hf

/-- A record read in full is the engine's, which becomes IDLE; it was DONE (R165). -/
theorem resultRelease_portEngine {n : Nat} (h : PortEngine s)
    (ht : execResultRelease n s = .next t) : PortEngine t := by
  have hover : PortEngine { s with host.transaction := .none } := h.with_transaction rfl nofun
  cases ht
  split
  case h_1 reply isRecord hr =>
    simp only []
    split
    case isTrue hread =>
      obtain ⟨hp, he⟩ := h
      obtain ⟨r, hdone, _⟩ : ∃ r, s.host.engine = .done r ∧ reply = r.bytes := by
        obtain ⟨_, _, _, _, _, hreading⟩ := he
        exact hreading reply (by rw [hr, hread.1])
      obtain ⟨hw, hsurv, hslot, hwalk⟩ := he.waits_for_nothing (workInHand_done hdone)
      refine ⟨hp.congr rfl rfl, engineSound_iff.2 ⟨iff_false_intro nofun, hw, iff_of_false nofun ?_,
        iff_of_false nofun ?_, ?_, nofun⟩⟩
      · simp [hsurv]
      · simpa [hslot, hostWalking] using hwalk
      · simp [hslot]
    case isFalse => exact hover
  · exact hover
  · exact hover
  · exact hover
  · exact h

/-- A LOOKUP that ends leaves neither slot nor walk of the host's, and the engine DONE (R115, R116). -/
theorem lookupEnds_portEngine {l : LookupUnit} (h : PortEngine s) (hw : workInHand s = some .walk)
    (hl : l.hostSlot = none) (hwalk : hostWalking { s with lookup := l } = false) (st : Status)
    (d : List Byte) : PortEngine (finish st d { s with lookup := l }) := by
  obtain ⟨hp, he⟩ := h
  obtain ⟨_, hn, hat, _, _, _⟩ := engineSound_iff.1 he
  obtain ⟨r, hr⟩ : ∃ r, s.host.engine = .executing r := by
    unfold workInHand at hw
    split at hw
    case h_1 r hr => exact ⟨r, hr⟩
    all_goals exact nomatch hw
  rw [finish_host_executing (s := { s with lookup := l }) hr]
  refine ⟨hp.congr rfl rfl, engineSound_iff.2 ⟨iff_false_intro nofun, ?_, iff_of_false nofun ?_,
    iff_of_false nofun ?_, ?_, fun reply ht => ?_⟩⟩
  · change engineWaits s = 0
    rw [hn, noticeInHand, hw]
    rfl
  · rw [hw] at hat
    simpa using hat
  · simpa [hl, hostWalking] using hwalk
  · simp [hl]
  · obtain ⟨_, _, _, _, _, hreading⟩ := he
    obtain ⟨_, hdone, _⟩ := hreading reply ht
    exact absurd (hr.symm.trans hdone) nofun

theorem abortLookup_portEngine (h : PortEngine s) (hw : workInHand s = some .walk) :
    PortEngine (abortLookup s) := by
  have hapart := (engineSound_iff.1 h.2).apart
  unfold abortLookup
  split
  case h_1 r i found hwalk =>
    have hslot : s.lookup.hostSlot = none := by simpa [hostWalking, hwalk] using hapart
    exact (lookupEnds_portEngine h hw (l := { s.lookup with walk := none }) hslot rfl _ _).next
      (arbitrate_portKept _)
  case h_2 r hslot _ =>
    have hwalk : hostWalking s = false := by
      rw [hslot] at hapart
      exact hapart
    exact (lookupEnds_portEngine h hw (l := { s.lookup with hostSlot := none }) rfl hwalk _ _).next
      (arbitrate_portKept _)
  · exact h

theorem count_dropEngineWaiter (q : List QueuedMessage) :
    (waitersOf (dropEngineWaiter q)).count .engine = 0 := by
  rw [List.count_eq_zero]
  intro hmem
  obtain ⟨ws, hws, he⟩ := List.mem_flatten.1 hmem
  simp only [dropEngineWaiter, List.map_map, List.mem_map, Function.comp] at hws
  obtain ⟨m, _, rfl⟩ := hws
  simp at he

theorem abort_portEngine (h : PortEngine s) : PortEngine (abort s) := by
  unfold abort
  split
  · exact h
  · exact h
  case h_3 c hc =>
    split
    case h_1 hw => exact abortLookup_portEngine h (by rw [workInHand_executing hc, hw])
    case h_2 i g hw =>
      split
      · obtain ⟨⟨hidle, hlen, hin, hsurv, hoff⟩, he⟩ := h
        have hdropped : PortSound { s with port.queue := dropEngineWaiter s.port.queue } := by
          have hnil : dropEngineWaiter s.port.queue = [] ↔ s.port.queue = [] := by
            simp [dropEngineWaiter]
          exact ⟨hidle.trans hnil.symm, by simpa [dropEngineWaiter] using hlen, hin, hsurv,
            fun ho => by simpa [dropEngineWaiter] using hoff ho⟩
        refine ⟨hdropped.congr (by simp) (by simp), engineSound_iff.2 ?_⟩
        have ht : EngineOwes False (engineWaits s)
            { s with port.queue := dropEngineWaiter s.port.queue } :=
          (engineSound_iff.1 he).congr rfl rfl rfl rfl
        refine ht.finished hc (by rw [hw]; nofun) (by rw [hw]; nofun) ?_ _ _
        simpa [engineWaits] using count_dropEngineWaiter s.port.queue
      · exact h
    · exact h
    · exact h

theorem walkExamination_portEngine (h : PortEngine s) (ht : execWalkExamination s = .next t) :
    PortEngine t := by
  cases ht
  split
  · exact h
  case h_2 hw => exact h.next (examineBus_portKept hw)
  case h_3 r i found hw =>
    have hwork : workInHand s = some .walk := (engineSound_iff.1 h.2).walk.2 (by simp [hostWalking, hw])
    have hslot : s.lookup.hostSlot = none := by
      simpa [hostWalking, hw] using (engineSound_iff.1 h.2).apart
    simp only [examineHost]
    split
    · exact (lookupEnds_portEngine h hwork (l := { s.lookup with walk := none }) hslot rfl _ _).next
        (arbitrate_portKept _)
    · refine ⟨h.1.congr rfl rfl, engineSound_iff.2 ((engineSound_iff.1 h.2).with_lookup ?_ ?_)⟩
      · simp [hostWalking, hw]
      · simp [hslot]

end Host

/-! ### The transmitter (R128 to R130, R134) -/

section Transmitter

variable {s t : State}

/-- The transmitter changes while the queue and what survives stay: it leaves IDLE to an empty queue, and
an attempt that survives to be under way. -/
theorem PortEngine.with_tx {p : SegmentPort} (h : PortEngine s) (hq : p.queue = s.port.queue)
    (hi : p.inbound = s.port.inbound) (hs : p.surviving = s.port.surviving) (hne : s.port.tx ≠ .idle)
    (hidle : p.tx ≠ .idle)
    (hsurv : s.port.surviving = true → attemptUnderWay { s with port := p } = true) :
    PortEngine { s with port := p } := by
  obtain ⟨⟨hidle', hlen, hin, _, hoff⟩, he⟩ := h
  refine ⟨⟨iff_of_false hidle ?_, by rwa [hq], by rwa [hi], fun ht => hsurv (hs ▸ ht), ?_⟩,
    engineSound_iff.2 ?_⟩
  · rw [hq]
    exact fun hnil => hne (hidle'.2 hnil)
  · rw [hq, hs]
    exact hoff
  · have hw : engineWaits { s with port := p } = engineWaits s := by
      rw [engineWaits, hq]
      rfl
    rw [EngineTurn, hw]
    exact (engineSound_iff.1 he).congr rfl hs rfl rfl

/-- Nothing survives a teardown while no attempt is under way. -/
theorem PortSound.not_surviving (h : PortSound s) (ha : attemptUnderWay s = false) :
    s.port.surviving ≠ true := by
  obtain ⟨_, _, _, hsurv, _⟩ := h
  exact fun hs => absurd (ha.symm.trans (hsurv hs)) nofun

theorem beginAt_portEngine {n : Nat} {v : Option Nat} (h : PortEngine s)
    (htx : s.port.tx = .deferring v) : PortEngine (beginAt n s) := by
  have ht : PortEngine (advanceTo n s) := h.next (advanceTo_portKept n s)
  exact ht.with_tx rfl rfl rfl (by simp [htx]) nofun fun _ => rfl

theorem attemptBegin_portEngine (h : PortEngine s) (ht : execAttemptBegin s = .next t) :
    PortEngine t := by
  cases ht
  split
  case h_1 htx => exact beginAt_portEngine h htx
  case h_2 htx =>
    split
    · exact h
    · exact beginAt_portEngine h htx
  all_goals exact h

theorem carrierRise_portEngine (h : PortEngine s) (ht : execCarrierRise s = .next t) :
    PortEngine t := by
  have hrises : PortKept s (carrierRises s) := PortKept.of_eq
  cases ht
  split
  · exact h
  · split
    case h_1 htx =>
      split
      · exact h.next hrises
      · refine (h.next hrises).with_tx rfl rfl rfl (by simp [htx]) nofun fun hs => ?_
        exact absurd hs (h.1.not_surviving (by simp [attemptUnderWay, htx]))
    all_goals exact h.next hrises

theorem ownCarrierFalls_portKept (s : State) : PortKept s (ownCarrierFalls s) := by
  unfold ownCarrierFalls
  split
  · exact PortKept.refl s
  · exact PortKept.of_eq

/-- The head is taken up after a backoff, where nothing survives. -/
theorem takeUp_portEngine (h : PortEngine s) (hne : s.port.tx ≠ .idle)
    (ha : attemptUnderWay s = false) : PortEngine (takeUp s) := by
  have hs := h.1.not_surviving ha
  unfold takeUp
  split
  · exact h.with_tx rfl rfl rfl hne nofun fun ht => absurd ht hs
  · exact h.with_tx rfl rfl rfl hne nofun fun ht => absurd ht hs

theorem backoffEnd_portEngine (h : PortEngine s) (ht : execBackoffEnd s = .next t) :
    PortEngine t := by
  cases ht
  split
  case h_1 stop htx =>
    exact takeUp_portEngine (h.next (advanceTo_portKept stop s)) (by simp [htx])
      (by simp [attemptUnderWay, htx])
  all_goals exact h

theorem collisionSignal_portEngine (h : PortEngine s) (ht : execCollisionSignal s = .next t) :
    PortEngine t := by
  cases ht
  split
  case h_1 start m rest htx hq =>
    obtain ⟨⟨_, hlen, hin, _, hoff⟩, he⟩ := h
    refine ⟨⟨iff_of_false nofun nofun, by simpa [hq] using hlen, hin, fun _ => rfl, fun ho => ?_⟩,
      engineSound_iff.2 ?_⟩
    · simpa [hq] using hoff ho
    · have hn : engineWaits s = (waitersOf (m :: rest)).count .engine := by rw [engineWaits, hq]
      have hs := engineSound_iff.1 he
      rw [EngineTurn, hn] at hs
      exact hs.congr rfl rfl rfl rfl
  case h_2 => exact h

/-- The transmitter is IDLE exactly where promotion has emptied the queue. -/
theorem promote_idle (l : List QueuedMessage) (s : State) :
    (promote l s).port.tx = .idle ↔ (promote l s).port.queue = [] := by
  induction l generalizing s with
  | nil => simp [promote]
  | cons m rest ih =>
    rw [promote]
    split
    · exact ih _
    · exact iff_of_false (takeUp_not_idle _) (by simp)

theorem promote_length (l : List QueuedMessage) (s : State) :
    (promote l s).port.queue.length ≤ l.length := by
  induction l generalizing s with
  | nil => simp [promote]
  | cons m rest ih =>
    rw [promote]
    split
    · exact (ih _).trans (Nat.le_succ _)
    · simp

theorem promote_frame (l : List QueuedMessage) (s : State) :
    (promote l s).port.inbound = s.port.inbound ∧ (promote l s).port.surviving = s.port.surviving := by
  induction l generalizing s with
  | nil => simp [promote]
  | cons m rest ih =>
    rw [promote]
    split
    · simpa using ih (reportAll .dropped m.waiters (count .answerDrops s))
    · simp

/-- As the head leaves, the engine's invariant stands, and the port is sound once nothing survives. -/
theorem headLeaves_sound {m : QueuedMessage} {rest : List QueuedMessage} (h : PortEngine s)
    (hq : s.port.queue = m :: rest) (o : NoticeOutcome) :
    (headLeaves o m rest s).port.surviving = s.port.surviving
      ∧ PortSound { headLeaves o m rest s with port.surviving := false }
      ∧ EngineTurn False (headLeaves o m rest s) := by
  obtain ⟨⟨_, hlen, hin, _, hoff⟩, he⟩ := h
  rw [hq, List.length_cons] at hlen
  obtain ⟨hinbound, hsurviving⟩ :=
    promote_frame rest (reportAll o m.waiters { s with port.queue := rest })
  have hshort := promote_length rest (reportAll o m.waiters { s with port.queue := rest })
  refine ⟨by simpa [headLeaves] using hsurviving, ⟨promote_idle _ _, ?_, ?_, nofun, fun ho => .inl ?_⟩, ?_⟩
  · exact hshort.trans (Nat.le_of_succ_le hlen)
  · rw [show (headLeaves o m rest s).port.inbound = s.port.inbound by
      simpa [headLeaves] using hinbound]
    exact hin
  · have hrest : rest = [] := by
      obtain hnil | ⟨_, hone⟩ := hoff (by simpa [headLeaves] using ho)
      · exact absurd (hq.symm.trans hnil) nofun
      · simpa [hq] using hone
    rw [hrest] at hshort ⊢
    exact List.eq_nil_of_length_eq_zero (Nat.le_zero.1 hshort)
  · refine EngineOwes.after_promote (EngineOwes.after_reportAll (ws := m.waiters) ?_ o)
    have hs := engineSound_iff.1 he
    rw [EngineTurn, engineWaits, hq, waitersOf_cons, List.count_append] at hs
    exact hs.congr rfl rfl rfl rfl

theorem headLeaves_portEngine {m : QueuedMessage} {rest : List QueuedMessage} (h : PortEngine s)
    (hq : s.port.queue = m :: rest) (o : NoticeOutcome) (hs : s.port.surviving = false) :
    PortEngine (headLeaves o m rest s) := by
  obtain ⟨hsurv, hp, he⟩ := headLeaves_sound h hq o
  have hk : PortKept { headLeaves o m rest s with port.surviving := false } (headLeaves o m rest s) :=
    PortKept.of_eq rfl rfl rfl (hsurv.trans hs) rfl rfl rfl rfl
  exact ⟨hk.port hp, engineSound_iff.2 he⟩

/-- The end of the attempt that survived a teardown completes its command, and nothing survives (R134). -/
theorem endSurvival_portEngine (hp : PortSound { s with port.surviving := false })
    (he : EngineTurn False s) (hs : s.port.surviving = true) : PortEngine (endSurvival s) := by
  obtain ⟨r, hr, hw⟩ : ∃ r, s.host.engine = .executing r ∧ r.work = .attemptEnd := by
    have hwork := he.attempt.2 hs
    unfold workInHand at hwork
    split at hwork
    case h_1 r hr => exact ⟨r, hr, Option.some.inj hwork⟩
    all_goals exact nomatch hwork
  have hwork : workInHand s = some .attemptEnd := by rw [workInHand_executing hr, hw]
  simp only [endSurvival, hr, hw]
  rw [finish_host_executing (s := { s with port.surviving := false }) hr]
  refine ⟨hp.congr rfl rfl, engineSound_iff.2 ⟨iff_false_intro nofun, ?_, iff_of_false nofun nofun,
    iff_of_false nofun ?_, he.apart, fun reply hread => ?_⟩⟩
  · change engineWaits s = 0
    rw [he.waits, noticeInHand, hwork]
    rfl
  · exact fun hl => absurd (hwork.symm.trans (he.walk.2 hl)) nofun
  · obtain ⟨_, hdone, _⟩ := he.reading reply hread
    exact absurd (hr.symm.trans hdone) nofun

theorem attemptSent_portEngine (h : PortEngine s) (ht : execAttemptSent s = .next t) :
    PortEngine t := by
  cases ht
  split
  case h_1 start m rest htx hq =>
    simp only []
    generalize start + frameBits m.destination m.answer * bitTime s = n
    have hk : PortKept s (ownCarrierFalls (advanceTo n s)) :=
      (advanceTo_portKept n s).trans (ownCarrierFalls_portKept _)
    have hq' : (ownCarrierFalls (advanceTo n s)).port.queue = m :: rest := by
      unfold ownCarrierFalls
      split <;> exact hq
    obtain ⟨hsurv, hp, he⟩ := headLeaves_sound (h.next hk) hq' .sent
    unfold endAttempt
    split
    case isTrue hs => exact endSurvival_portEngine hp he hs
    case isFalse hs =>
      exact headLeaves_portEngine (h.next hk) hq' .sent (hsurv.symm.trans (by simpa using hs))
  case h_2 => exact h

theorem backOff_portEngine {n : Nat} (h : PortEngine s) (hq : s.port.queue ≠ [])
    (hs : s.port.surviving = false) : PortEngine (backOff n s) := by
  have hdraw : PortEngine { s with freeUsed := s.freeUsed + 1 } := h.next PortKept.of_eq
  have hne : s.port.tx ≠ .idle := fun htx => hq (h.1.1.1 htx)
  have hnot (ht : s.port.surviving = true) : False := absurd (hs.symm.trans ht) nofun
  simp only [backOff]
  split
  · unfold takeUp
    split
    · exact hdraw.with_tx rfl rfl rfl hne nofun fun ht => (hnot ht).elim
    · exact hdraw.with_tx rfl rfl rfl hne nofun fun ht => (hnot ht).elim
  · exact hdraw.with_tx rfl rfl rfl hne nofun fun ht => (hnot ht).elim

theorem jamEnds_portEngine {m : QueuedMessage} {rest : List QueuedMessage} (h : PortEngine s)
    (hq : s.port.queue = m :: rest) : PortEngine (jamEnds m rest s) := by
  unfold jamEnds
  split
  case isTrue hs =>
    obtain ⟨hsurv, hp, he⟩ := headLeaves_sound h hq .dropped
    exact endSurvival_portEngine hp he (hsurv.trans hs)
  case isFalse hs =>
    have hs' : s.port.surviving = false := by simpa using hs
    split
    · exact headLeaves_portEngine (h.next (count_portKept _ s)) (by simpa using hq) _ (by simpa using hs')
    · exact backOff_portEngine h (by simp [hq]) hs'

theorem jamEnd_portEngine (h : PortEngine s) (ht : execJamEnd s = .next t) : PortEngine t := by
  cases ht
  split
  case h_1 stop m rest htx hq =>
    refine jamEnds_portEngine (h.next ((advanceTo_portKept _ s).trans (ownCarrierFalls_portKept _))) ?_
    unfold ownCarrierFalls
    split <;> exact hq
  case h_2 => exact h

end Transmitter

/-! ### Every command, and every step -/

theorem portEngine_reset : PortEngine State.reset :=
  ⟨⟨iff_of_true rfl rfl, Nat.zero_le _, Nat.zero_le _, nofun, fun _ => .inl rfl⟩,
    nofun, rfl, iff_of_false nofun nofun, iff_of_false nofun nofun, rfl, nofun⟩

theorem coldReset_portEngine {s t : State} (h : exec .coldReset s = .next t) : PortEngine t := by
  cases h
  refine ⟨portEngine_reset.1, nofun, rfl, iff_of_false nofun nofun, iff_of_false nofun nofun, rfl,
    fun reply hr => ?_⟩
  cases ht : s.host.transaction <;> simp [abandonTransaction, ht] at hr

theorem dispatch_portEngine {k : ReqKind} {owner : Request → State → State} {s : State}
    (h : PortEngine s) (ho : ∀ r u, PortKept u (owner r u)) : PortEngine (dispatch k owner s) := by
  obtain ⟨hs, _⟩ | ⟨r, rest, hi, _, hs⟩ := dispatch_cases k owner s <;> rw [hs]
  · exact h
  · refine PortEngine.next ?_ (ho r _)
    obtain ⟨⟨hidle, hlen, hin, hsurv, hoff⟩, he⟩ := h
    rw [hi, List.length_cons] at hin
    exact ⟨⟨hidle, hlen, Nat.le_of_succ_le hin, hsurv, hoff⟩,
      engineSound_iff.2 (EngineOwes.congr (engineSound_iff.1 he) rfl rfl rfl rfl)⟩

theorem exec_portEngine {c : Instr} {s t : State} (h : exec c s = .next t) (hs : PortEngine s) :
    PortEngine t := by
  cases c with
  | coldReset => exact coldReset_portEngine h
  | configure f => cases h; exact takeCommand_portEngine hs fun _ => configure_portEngine
  | readParameter f => cases h; exact takeCommand_portEngine hs fun _ => readParameter_portEngine
  | enable f => cases h; exact takeCommand_portEngine hs fun _ => enable_portEngine
  | disable f => cases h; exact takeCommand_portEngine hs fun _ => disable_portEngine
  | suspend f => cases h; exact takeCommand_portEngine hs fun _ => suspend_portEngine
  | resume f => cases h; exact takeCommand_portEngine hs fun _ => resume_portEngine
  | filterPut f => cases h; exact takeCommand_portEngine hs fun _ => filterPut_portEngine
  | filterRemove f => cases h; exact takeCommand_portEngine hs fun _ => filterRemove_portEngine
  | filterRead f => cases h; exact takeCommand_portEngine hs fun _ => filterRead_portEngine
  | addStatic f => cases h; exact takeCommand_portEngine hs fun _ => addStatic_portEngine
  | edit f => cases h; exact takeCommand_portEngine hs fun _ => edit_portEngine
  | revoke f => cases h; exact takeCommand_portEngine hs fun _ => revoke_portEngine
  | confirmKeep f => cases h; exact takeCommand_portEngine hs fun _ => confirmKeep_portEngine
  | confirmEvict f => cases h; exact takeCommand_portEngine hs fun _ => confirmEvict_portEngine
  | readEntry f => cases h; exact takeCommand_portEngine hs fun _ => readEntry_portEngine
  | findAddress f => cases h; exact takeCommand_portEngine hs fun _ => findAddress_portEngine
  | lookup f => cases h; exact takeCommand_portEngine hs fun _ => lookup_portEngine
  | readContext f => cases h; exact takeCommand_portEngine hs fun _ => readContext_portEngine
  | readDeferrals f => cases h; exact takeCommand_portEngine hs fun _ => readDeferrals_portEngine
  | nextChange f => cases h; exact takeCommand_portEngine hs fun _ => nextChange_portEngine
  | readCounters f => cases h; exact takeCommand_portEngine hs fun _ => readCounters_portEngine
  | interruptSetup f => cases h; exact takeCommand_portEngine hs fun _ => interruptSetup_portEngine
  | flush f => cases h; exact takeCommand_portEngine hs fun _ => flush_portEngine
  | portRestart f => cases h; exact takeCommand_portEngine hs fun _ => portRestart_portEngine
  | result => cases h; exact takeTransaction_portEngine hs (fixReply_portEngine hs)
  | resultRelease n => exact resultRelease_portEngine hs h
  | status => cases h; exact takeTransaction_portEngine hs (takeStatus_portEngine hs)
  | abort =>
    cases h
    exact takeTransaction_portEngine hs (abort_portEngine (hs.with_transaction rfl nofun))
  | receiveMessage bytes extra => exact hs.next (receiveMessage_portKept h)
  | join => cases h; exact dispatch_portEngine hs takeJoin_portKept
  | extend => cases h; exact dispatch_portEngine hs takeExtend_portKept
  | agree => cases h; exact dispatch_portEngine hs takeAgree_portKept
  | reply => cases h; exact dispatch_portEngine hs takeReply_portKept
  | keep => cases h; exact dispatch_portEngine hs takeKeep_portKept
  | leave => cases h; exact dispatch_portEngine hs takeLeave_portKept
  | find => cases h; exact dispatch_portEngine hs takeFind_portKept
  | walkExamination => exact walkExamination_portEngine hs h
  | leaseTick => exact hs.next (leaseTick_portKept h)
  | boundExpiry i => cases h; exact hs.next (expiryEvent_portKept (expireBound_portKept i))
  | lapsingExpiry i => cases h; exact hs.next (expiryEvent_portKept (holdExpired_portKept i))
  | heldExpiry i => cases h; exact hs.next (expiryEvent_portKept (freeEntry_portKept i))
  | legacySilenceExpiry i => cases h; exact hs.next (expiryEvent_portKept (freeEntry_portKept i))
  | settleExpiry => exact hs.next (settleExpiry_portKept h)
  | pageTimerExpiry k => cases h; exact hs.next (pageExpires_portKept k s)
  | agreeTimerExpiry k => cases h; exact hs.next (agreeExpires_portKept k s)
  | probeTimerExpiry k => cases h; exact hs.next (probeExpires_portKept k s)
  | silenceTimerExpiry => exact hs.next (silenceTimerExpiry_portKept h)
  | attemptBegin => exact attemptBegin_portEngine hs h
  | carrierRise => exact carrierRise_portEngine hs h
  | attemptSent => exact attemptSent_portEngine hs h
  | collisionSignal => exact collisionSignal_portEngine hs h
  | jamEnd => exact jamEnd_portEngine hs h
  | backoffEnd => exact backoffEnd_portEngine hs h

/-- Settles O11: each command keeps transmitter and queue together and the engine to its work. -/
theorem portAndEngineSoundKept : Obligations.PortAndEngineSoundKept := fun _ _ hp he h =>
  step_keeps (P := PortEngine) (fun _ _ hu => hu.next PortKept.of_eq)
    (fun n u hu => hu.next (advanceTo_portKept n u)) (fun _ _ _ hv hu => exec_portEngine hv hu) h ⟨hp, he⟩

/-- Settles O6: in the state after reset nothing is held, waits or runs. -/
theorem resetMeetsInvariants : Obligations.ResetMeetsInvariants := by
  obtain ⟨hport, hengine⟩ := portEngine_reset
  obtain ⟨hwaiting, hcollisions⟩ := queueSound_reset
  exact ⟨tableSound_reset, joinSound_reset, clockSound_reset, lookupSound_reset, hport, hengine, hwaiting,
    hcollisions, valuesInRange_reset⟩

end Sys2Proof.Machine
end

section
/-! COMMAND frames in common (spec/10.2): every command that carries a frame is taken in one way, with the
lengths of the command code table. Refusal while EXECUTING, malformed frames, and cold reset. -/

namespace Sys2Proof.Machine

-- One lemma is elaborated after another, which keeps the check's memory low.
set_option Elab.async false

/-! ### The command code table (R186) -/

/-- The command of a code is executed by taking its frame, under the lengths that the table gives. -/
def TakenAs (code : Byte) (i : Instr) (f : CommandFrame) : Prop :=
  ∃ (suits : Nat → Bool) (body : List Byte → State → State),
    (∀ n, suits n = lengthSuits code.toNat n)
      ∧ ∀ s, exec i s = .next (takeCommand code suits f body s)

theorem exactly_eq (n k : Nat) : (n == k) = decide (k ≤ n ∧ n ≤ k) := by
  rw [Bool.eq_iff_iff, beq_iff_eq, decide_eq_true_iff]
  omega

/-- A code with one length alone. -/
theorem lengthSuits_exactly {code k : Nat}
    (h : paramLengths.filter (fun r => r.1 == code) = [(code, k, k, 1)]) (n : Nat) :
    (n == k) = lengthSuits code n := by
  have hsplit : lengthSuits code n =
      (paramLengths.filter (fun r => r.1 == code)).any
        (fun r => decide (r.2.1 ≤ n ∧ n ≤ r.2.2.1) && n % r.2.2.2 == 0) := by
    rw [List.any_filter, lengthSuits]
    simp only [Bool.and_assoc]
  rw [hsplit, h, exactly_eq]
  simp [Nat.mod_one]

theorem lengthSuits_configure (n : Nat) :
    (n % 5 == 0 && decide (5 ≤ n ∧ n ≤ 45)) = lengthSuits 0x01 n := by
  simp [lengthSuits, paramLengths, Bool.and_comm]

/-- Every command that carries a frame is taken as the command of its row's code. -/
theorem takenAs_of_frame {i : Instr} {f : CommandFrame} (h : i.frame? = some f) :
    ∃ code, TakenAs code i f := by
  cases i with
  | configure g => cases h; exact ⟨0x01, _, _, lengthSuits_configure, fun _ => rfl⟩
  | readParameter g => cases h; exact ⟨0x02, _, _, lengthSuits_exactly rfl, fun _ => rfl⟩
  | enable g => cases h; exact ⟨0x03, _, _, lengthSuits_exactly rfl, fun _ => rfl⟩
  | disable g => cases h; exact ⟨0x04, _, _, lengthSuits_exactly rfl, fun _ => rfl⟩
  | suspend g => cases h; exact ⟨0x05, _, _, lengthSuits_exactly rfl, fun _ => rfl⟩
  | resume g => cases h; exact ⟨0x06, _, _, lengthSuits_exactly rfl, fun _ => rfl⟩
  | filterPut g => cases h; exact ⟨0x07, _, _, lengthSuits_exactly rfl, fun _ => rfl⟩
  | filterRemove g => cases h; exact ⟨0x08, _, _, lengthSuits_exactly rfl, fun _ => rfl⟩
  | filterRead g => cases h; exact ⟨0x09, _, _, lengthSuits_exactly rfl, fun _ => rfl⟩
  | addStatic g => cases h; exact ⟨0x0A, _, _, lengthSuits_exactly rfl, fun _ => rfl⟩
  | edit g => cases h; exact ⟨0x0B, _, _, lengthSuits_exactly rfl, fun _ => rfl⟩
  | revoke g => cases h; exact ⟨0x0C, _, _, lengthSuits_exactly rfl, fun _ => rfl⟩
  | confirmKeep g => cases h; exact ⟨0x0D, _, _, lengthSuits_exactly rfl, fun _ => rfl⟩
  | confirmEvict g => cases h; exact ⟨0x0D, _, _, lengthSuits_exactly rfl, fun _ => rfl⟩
  | readEntry g => cases h; exact ⟨0x0E, _, _, lengthSuits_exactly rfl, fun _ => rfl⟩
  | findAddress g => cases h; exact ⟨0x0F, _, _, lengthSuits_exactly rfl, fun _ => rfl⟩
  | lookup g => cases h; exact ⟨0x10, _, _, lengthSuits_exactly rfl, fun _ => rfl⟩
  | readContext g => cases h; exact ⟨0x11, _, _, lengthSuits_exactly rfl, fun _ => rfl⟩
  | readDeferrals g => cases h; exact ⟨0x12, _, _, lengthSuits_exactly rfl, fun _ => rfl⟩
  | nextChange g => cases h; exact ⟨0x13, _, _, lengthSuits_exactly rfl, fun _ => rfl⟩
  | readCounters g => cases h; exact ⟨0x14, _, _, lengthSuits_exactly rfl, fun _ => rfl⟩
  | interruptSetup g => cases h; exact ⟨0x15, _, _, lengthSuits_exactly rfl, fun _ => rfl⟩
  | flush g => cases h; exact ⟨0x16, _, _, lengthSuits_exactly rfl, fun _ => rfl⟩
  | portRestart g => cases h; exact ⟨0x17, _, _, lengthSuits_exactly rfl, fun _ => rfl⟩
  | _ => exact nomatch h

/-! ### Taking a frame -/

section Taken

variable {i : Instr} {f : CommandFrame} {code : Byte} {s : State}

theorem TakenAs.while_waiting (h : TakenAs code i f) (hw : s.host.transaction = .abandoned) :
    exec i s = .next { s with host.transaction := .none } := by
  obtain ⟨suits, body, -, hexec⟩ := h
  rw [hexec, takeCommand, if_pos (by rw [portWaits, hw]; rfl)]

theorem TakenAs.while_executing {c : CommandRecord} (h : TakenAs code i f) (hl : Listening s)
    (he : s.host.engine = .executing c) :
    exec i s = .next { s with host.rejected := true, host.transaction := .none } := by
  obtain ⟨suits, body, -, hexec⟩ := h
  rw [hexec, takeCommand, if_neg (by rw [portWaits, beq_iff_eq]; exact hl)]
  simp only [he]

/-- A frame of another code than the row's, or of a length that the row's code does not have. -/
theorem TakenAs.when_malformed (h : TakenAs code i f) (hr : Ready s)
    (hbad : f.code = code → f.length.toNat ≠ f.params.length
      ∨ lengthSuits f.code.toNat f.params.length = false) :
    exec i s = .next (completed f .malformed [] s s) := by
  obtain ⟨suits, body, hsuits, hexec⟩ := h
  obtain ⟨hlisten, hfree⟩ := hr
  have hmalformed : malformed code suits f = true := by
    by_cases hcode : f.code = code
    · obtain hlen | hlen := hbad hcode
      · simp [malformed, hlen]
      · simp [malformed, hsuits, ← hcode, hlen]
    · simp [malformed, hcode]
  rw [hexec]
  obtain ⟨hw, _⟩ | ⟨c, _, he, _⟩ | ⟨_, _, _, ht⟩ | ⟨_, _, hm, _⟩ :=
    takeCommand_cases code suits f body s
  · exact absurd hw hlisten
  · exact absurd he (hfree c)
  · rw [ht, finish_accept]
  · rw [hmalformed] at hm
    cases hm

end Taken

/-! ### Cold reset (R24, R161) -/

/-- The transaction a cold reset leaves, by whether one was in progress. -/
theorem abandonTransaction_eq (x : Transaction) :
    abandonTransaction x = if x = .none then .none else .abandoned := by
  cases x <;> rfl

/-- The parameters after reset have the defaults of R147. -/
theorem default_values :
    [Param.busRate, .grantLow, .grantHigh, .offered, .priority, .tickPeriod, .minLease, .maxLease,
        .defaultLease, .grace, .hold, .settle, .legacyLearning, .legacySilence, .adoption,
        .defaultVerdict, .pageTimeout, .agreeTimeout, .probeTimeout, .probeTries, .answerLifetime,
        .holdoffUnit, .segmentSilence].map Params.default.get
      = [250, 1, 200, 255, 0x76543210, 20, 10, 600, 120, 10, 60, 30, 1, 300, 1, 0, 20, 50, 10, 3,
        100, 5, 40] := by decide

/-- While the port waits for the release of select no reply is given, and a release ends the wait. -/
theorem waiting_port {s : State} (hw : s.host.transaction = .abandoned) :
    exec .result s = .next s ∧ exec .status s = .next s ∧ exec .abort s = .next s
      ∧ (∀ n, exec (.resultRelease n) s = .next { s with host.transaction := .none }) := by
  have hwaits : portWaits s = true := by rw [portWaits, hw]; rfl
  refine ⟨?_, ?_, ?_, fun n => ?_⟩
  · rw [exec, execResult, takeTransaction, if_pos hwaits]
  · rw [exec, execStatus, takeTransaction, if_pos hwaits]
  · rw [exec, execAbort, takeTransaction, if_pos hwaits]
  · simp only [exec, execResultRelease, hw]

/-! ### The obligations -/

/-- Settles O1: the definition of a step on a queue that is not empty. -/
theorem stepRunsFrontCommand : Obligations.StepRunsFrontCommand := by
  intro c rest s h
  simp only [step, h]

/-- Settles O3: a frame that a listening port takes from an engine in hand is not looked at. -/
theorem commandRefusedWhileExecuting : Obligations.CommandRefusedWhileExecuting := by
  intro i f s c hf hl he
  obtain ⟨code, htaken⟩ := takenAs_of_frame hf
  exact htaken.while_executing hl he

/-- Settles O4: under the row of another code, a frame is malformed by its code; and under its own row by
its length. -/
theorem malformedCommandCompletes : Obligations.MalformedCommandCompletes := by
  intro i f s hf _ hr hbad
  obtain ⟨code, htaken⟩ := takenAs_of_frame hf
  exact htaken.when_malformed hr fun _ => hbad

/-- Settles O5: the fields of the state after reset, and the port that waits for select's release. -/
theorem coldResetClears : Obligations.ColdResetClears := by
  refine ⟨fun s => ⟨_, rfl, ?entries, rfl, rfl, rfl, ?contexts, rfl, rfl, rfl, rfl, rfl, rfl, rfl, rfl,
    rfl, rfl, rfl, ?windows, default_values, rfl, ?counters, rfl, rfl, rfl, rfl, rfl, rfl, rfl, rfl,
    rfl, abandonTransaction_eq _⟩, fun s hw => ?waits⟩
  case entries => exact fun i => ⟨entry_reset i, by simp [State.reset]⟩
  case contexts => exact fun c => context_reset c
  case windows => exact fun c => by simp [State.reset, Params.default]
  case counters => exact fun k => by simp [counter, State.reset]
  case waits =>
    obtain ⟨hresult, hstatus, habort, hrelease⟩ := waiting_port hw
    refine ⟨hresult, hstatus, habort, hrelease, fun i f hf => ?_⟩
    obtain ⟨code, htaken⟩ := takenAs_of_frame hf
    exact htaken.while_waiting hw

end Sys2Proof.Machine
end

section
/-! The commands of the change unit and the phase commands that start the part (spec/08.1, spec/09), and
the counters. -/

namespace Sys2Proof.Machine

-- One lemma is elaborated after another, which keeps the check's memory low.
set_option Elab.async false

/-! ### The commands once taken -/

section Taken

variable {f : CommandFrame} {s : State}

theorem exec_enable (hs : Ready s) (hf : Framed 0x03 f) (hp : f.params = []) :
    exec (.enable f) s = .next (enable (accept f s)) :=
  congrArg Host.Outcome.next (takeCommand_taken hs hf (by simp [hp]) (by simp [hp]))

theorem exec_nextChange (hs : Ready s) (hf : Framed 0x13 f) (hp : f.params = []) :
    exec (.nextChange f) s = .next (nextChange (accept f s)) :=
  congrArg Host.Outcome.next (takeCommand_taken hs hf (by simp [hp]) (by simp [hp]))

theorem exec_readCounters (hs : Ready s) (hf : Framed 0x14 f) (hl : f.params.length = 1) :
    exec (.readCounters f) s = .next (readCounters f.params (accept f s)) :=
  congrArg Host.Outcome.next (takeCommand_taken hs hf (by simp [hl]) (by omega))

theorem exec_interruptSetup (hs : Ready s) (hf : Framed 0x15 f) (hl : f.params.length = 3) :
    exec (.interruptSetup f) s = .next (interruptSetup f.params (accept f s)) :=
  congrArg Host.Outcome.next (takeCommand_taken hs hf (by simp [hl]) (by omega))

end Taken

/-! ### ENABLE (R138) -/

section Enable

variable {f : CommandFrame} {s : State}

theorem enable_to_active (hp : s.phase.phase = .offline) (hs : s.phase.params.settle = 0) :
    enable (accept f s) =
      completed f .ok [2] s
        { s with
          lease.nextTick := some (s.now + s.phase.params.tickPeriod * 50000)
          change.partCauses := s.change.partCauses ||| partPhase
          phase.phase := .active } := by
  have hstart : startPart (accept f s) =
      enterPhase .active
        { accept f s with lease.nextTick := some (s.now + tickLength s) } := if_pos hs
  rw [enable, accept_phase, if_pos hp, hstart]
  rfl

theorem enable_to_settling (hp : s.phase.phase = .offline) (hs : s.phase.params.settle ≠ 0) :
    enable (accept f s) =
      completed f .ok [1] s
        { s with
          lease.nextTick := some (s.now + s.phase.params.tickPeriod * 50000)
          change.partCauses := s.change.partCauses ||| partPhase
          phase.phase := .settling, phase.settle := some s.phase.params.settle } := by
  have hstart : startPart (accept f s) =
      enterPhase .settling
        { accept f s with
          lease.nextTick := some (s.now + tickLength s)
          phase.settle := some s.phase.params.settle } := if_neg hs
  rw [enable, accept_phase, if_pos hp, hstart]
  rfl

theorem enable_refused (hp : s.phase.phase ≠ .offline) :
    enable (accept f s) = completed f .phase [] s s := by
  rw [enable, accept_phase, if_neg hp, finish_accept]

end Enable

/-! ### NEXT-CHANGE (R153) -/

section NextChange

variable {f : CommandFrame} {s : State}

theorem firstChanged_lowest {i : Index}
    (h : Lowest (fun j : Index => s.change.entryCauses[j] ≠ 0) i) : firstChanged s = some i :=
  find_lowest (by simpa [Lowest] using h)

theorem firstChanged_quiet (h : ∀ j : Index, s.change.entryCauses[j] = 0) : firstChanged s = none := by
  rw [firstChanged, List.find?_eq_none]
  exact fun j _ => by simp only [h j]; decide

theorem firstChanged_isSome :
    (firstChanged s).isSome = true ↔ ∃ j : Index, s.change.entryCauses[j] ≠ 0 := by
  simp [firstChanged]

theorem changesPending_iff :
    changesPending s = true
      ↔ (∃ j : Index, s.change.entryCauses[j] ≠ 0) ∨ s.change.partCauses ≠ 0 := by
  rw [changesPending, Bool.or_eq_true, firstChanged_isSome, bne_iff_ne]

/-- The state with the causes of one entry cleared. -/
def clearCauses (i : Index) (s : State) : State :=
  { s with change.entryCauses := s.change.entryCauses.set i 0 }

/-- What is left to report once the lowest entry with causes is cleared: those of the entries above it. -/
theorem clearCauses_pending {i : Index}
    (h : Lowest (fun j : Index => s.change.entryCauses[j] ≠ 0) i) :
    changesPending (clearCauses i s) = true
      ↔ (∃ j : Index, i < j ∧ s.change.entryCauses[j] ≠ 0) ∨ s.change.partCauses ≠ 0 := by
  obtain ⟨_, hlow⟩ := h
  have hcauses : ∀ j : Index, (clearCauses i s).change.entryCauses[j] =
      if j = i then 0 else s.change.entryCauses[j] := by
    intro j
    by_cases hj : j = i
    · simp [clearCauses, hj]
    · have hval : i.val ≠ j.val := fun k => hj (Fin.ext k.symm)
      simp [clearCauses, hj, hval]
  have hentries : (∃ j : Index, (clearCauses i s).change.entryCauses[j] ≠ 0)
      ↔ ∃ j : Index, i < j ∧ s.change.entryCauses[j] ≠ 0 := by
    constructor
    · rintro ⟨j, hj⟩
      rw [hcauses] at hj
      by_cases hij : j = i
      · exact absurd (if_pos hij) hj
      · rw [if_neg hij] at hj
        refine ⟨j, lt_of_le_of_ne (not_lt.1 fun hlt => hlow j hlt hj) (Ne.symm hij), hj⟩
    · rintro ⟨j, hij, hj⟩
      exact ⟨j, by rw [hcauses, if_neg (ne_of_gt hij)]; exact hj⟩
  rw [changesPending_iff, hentries]
  rfl

theorem nextChange_entry {i : Index}
    (h : Lowest (fun j : Index => s.change.entryCauses[j] ≠ 0) i) :
    nextChange (accept f s) =
      completed f .ok
        ([1, flagByte (changesPending (clearCauses i s)), oneByte i.val,
          s.change.entryCauses[i].setWidth 8] ++ entryRecord (entry s i)) s (clearCauses i s) := by
  have hfirst : firstChanged (accept f s) = some i := firstChanged_lowest h
  simp only [nextChange, hfirst]
  rfl

theorem nextChange_part (h : ∀ j : Index, s.change.entryCauses[j] = 0)
    (hp : s.change.partCauses ≠ 0) :
    nextChange (accept f s) =
      completed f .ok [2, 0, s.change.partCauses.setWidth 8] s
        { s with change.partCauses := 0 } := by
  have hfirst : firstChanged (accept f s) = none := firstChanged_quiet h
  simp only [nextChange, hfirst]
  exact if_neg hp

theorem nextChange_none (h : ∀ j : Index, s.change.entryCauses[j] = 0)
    (hp : s.change.partCauses = 0) :
    nextChange (accept f s) = completed f .ok [0, 0] s s := by
  have hfirst : firstChanged (accept f s) = none := firstChanged_quiet h
  simp only [nextChange, hfirst, accept_change, if_pos hp, finish_accept]

theorem flagByte_eq_one (b : Bool) : flagByte b = 1 ↔ b = true := by
  cases b <;> decide

theorem flagByte_zero_or_one (b : Bool) : flagByte b = 0 ∨ flagByte b = 1 := by
  cases b <;> decide

end NextChange

/-! ### READ-COUNTERS and INTERRUPT-SETUP (R156, R157) -/

section Setup

variable {f : CommandFrame} {s : State}

theorem readOption_eq_none_iff {p : List Byte} {k : Nat} :
    readOption p k = none ↔ 1 < (byteAt p k).toNat := by
  rw [readOption]
  split
  next h => simp [h]
  next h => simp [h]
  next _ h0 h1 =>
    have hne : (byteAt p k).toNat ≠ 0 ∧ (byteAt p k).toNat ≠ 1 := ⟨h0, h1⟩
    exact iff_of_true rfl (by omega)

theorem readOption_eq_some_iff {p : List Byte} {k : Nat} {b : Bool} :
    readOption p k = some b ↔ byteAt p k = if b then 1 else 0 := by
  have hbyte : ∀ m : Nat, m < 256 → ((byteAt p k).toNat = m ↔ byteAt p k = BitVec.ofNat 8 m) :=
    fun m hm => by rw [← BitVec.toNat_inj, BitVec.toNat_ofNat, Nat.mod_eq_of_lt hm]
  have h0 := hbyte 0 (by decide)
  have h1 := hbyte 1 (by decide)
  rw [readOption]
  split <;> cases b <;> simp_all

/-- The counters in their order are the twelve counter values, two bytes each (R154). -/
theorem counterBytes_eq (s : State) :
    counterBytes s =
      [Counter.joins, .grants, .refusals, .holdoffs, .renewals, .lapses, .duplicates, .collisions,
        .strays, .inboundDrops, .answerDrops, .badMessages].flatMap
        (fun c => beBytes 2 (counter s c)) := by
  have hlist : s.change.counters.toList =
      [Counter.joins, .grants, .refusals, .holdoffs, .renewals, .lapses, .duplicates, .collisions,
        .strays, .inboundDrops, .answerDrops, .badMessages].map (counter s) := by
    refine List.ext_getElem (by simp) fun k hk _ => ?_
    have hk' : k < 12 := by simpa using hk
    interval_cases k <;> simp [counter, Counter.slot]
  rw [counterBytes, hlist, List.map_map, List.flatMap]
  rfl

theorem readCounters_refused {p : List Byte} (h : readOption p 0 = none) :
    readCounters p (accept f s) = completed f .range [] s s := by
  simp only [readCounters, h, finish_accept]

theorem readCounters_reads {p : List Byte} {clear : Bool} (h : readOption p 0 = some clear) :
    readCounters p (accept f s) =
      completed f .ok (counterBytes s) s
        (if clear then { s with change.counters := Vector.replicate 12 0 } else s) := by
  simp only [readCounters, h]
  cases clear <;> rfl

theorem interruptSetup_replaces {p : List Byte} {m : Bool} (hm : readOption p 0 = some m)
    (he : (byteAt p 1).toNat < 32) (hq : (byteAt p 2).toNat < 32) :
    interruptSetup p (accept f s) =
      completed f .ok [flagByte m, byteAt p 1, byteAt p 2] s
        { s with
          change.master := m, change.entryEnable := (byteAt p 1).setWidth 5,
          change.partEnable := (byteAt p 2).setWidth 5 } := by
  simp only [interruptSetup, hm, causeSetOk, he, hq]
  rfl

theorem interruptSetup_refused {p : List Byte}
    (h : readOption p 0 = none ∨ 32 ≤ (byteAt p 1).toNat ∨ 32 ≤ (byteAt p 2).toNat) :
    interruptSetup p (accept f s) = completed f .range [] s s := by
  cases hm : readOption p 0 with
  | none => simp only [interruptSetup, hm, finish_accept]
  | some m =>
    have hsets : (causeSetOk (byteAt p 1) && causeSetOk (byteAt p 2)) ≠ true := by
      rw [causeSetOk, causeSetOk, ne_eq, Bool.and_eq_true, decide_eq_true_iff, decide_eq_true_iff]
      have hrange := h.resolve_left (by simp [hm])
      omega
    simp only [interruptSetup, hm, if_neg hsets, finish_accept]

end Setup

/-! ### One increment (R154) -/

theorem Counter.slot_injective : Function.Injective Counter.slot := by
  refine Function.LeftInverse.injective
    (g := fun k => #v[Counter.joins, .grants, .refusals, .holdoffs, .renewals, .lapses, .duplicates,
      .collisions, .strays, .inboundDrops, .answerDrops, .badMessages][k]) fun c => ?_
  cases c <;> rfl

theorem counter_saturated {c : Counter} {s : State} (h : 65535 ≤ counter s c) : count c s = s :=
  if_pos h

/-- Below its ceiling a counter rises by 1, and on reaching it the part cause is set. -/
theorem count_below {c : Counter} {s : State} (h : counter s c < 65535) :
    count c s =
      { s with
        change.counters := s.change.counters.set c.slot (counter s c + 1)
        change.partCauses :=
          if counter s c = 65534 then s.change.partCauses ||| partSaturated
          else s.change.partCauses } := by
  have hnot : ¬ Config.counterCeiling ≤ counter s c := not_le.2 h
  by_cases hlast : counter s c = 65534
  · have hreached : counter s c + 1 = Config.counterCeiling := by rw [hlast]; rfl
    simp only [count, if_neg hnot, if_pos hreached, if_pos hlast]
    rfl
  · have hbelow : counter s c + 1 ≠ Config.counterCeiling := fun k => hlast (Nat.succ.inj k)
    simp only [count, if_neg hnot, if_neg hbelow, if_neg hlast]

/-! ### The obligations -/

/-- Settles O18: the two phases that ENABLE enters, by settle ticks, and the refusal. -/
theorem enableStartsPart : Obligations.EnableStartsPart := by
  intro f s hs hf hp
  rw [exec_enable hs hf hp]
  refine ⟨fun h h0 => ?_, fun h h0 => ?_, fun h => ?_⟩
  · rw [enable_to_active h h0]
  · rw [enable_to_settling h h0]
  · rw [enable_refused h]

/-- Settles O34: an entry with causes, the part causes alone, or none. -/
theorem nextChangeReports : Obligations.NextChangeReports := by
  intro f s hs hf hp
  rw [exec_nextChange hs hf hp]
  refine ⟨fun i hi => ⟨flagByte (changesPending (clearCauses i s)), ?_, flagByte_zero_or_one _, ?_⟩,
    fun hq h => ?_, fun hq h => ?_⟩
  · rw [flagByte_eq_one, clearCauses_pending hi]
  · rw [nextChange_entry hi]
    rfl
  · rw [nextChange_part hq h]
  · rw [nextChange_none hq h]

/-- Settles O35: by the clear option's three kinds of value. -/
theorem countersReadAndCleared : Obligations.CountersReadAndCleared := by
  rintro ⟨tag, code, length, params⟩ s n hs hf rfl
  rw [exec_readCounters hs hf rfl]
  refine ⟨fun h => ?_, fun h => ⟨Vector.replicate 12 0, ?_, fun k => by simp⟩, fun h => ?_⟩
  · have hopt : readOption [n] 0 = some false := readOption_eq_some_iff.2 h
    rw [readCounters_reads hopt, counterBytes_eq]
    rfl
  · have hopt : readOption [n] 0 = some true := readOption_eq_some_iff.2 h
    rw [readCounters_reads hopt, counterBytes_eq]
    rfl
  · have hopt : readOption [n] 0 = none := readOption_eq_none_iff.2 h
    rw [readCounters_refused hopt]

/-- Settles O36: the enables after reset, the three fields in range, and any of them out of range. -/
theorem interruptSetupReplacesEnables : Obligations.InterruptSetupReplacesEnables := by
  refine ⟨fun s => ⟨_, rfl, rfl, rfl, rfl⟩, ?_⟩
  rintro ⟨tag, code, length, params⟩ s m e q hs hf rfl
  rw [exec_interruptSetup hs hf rfl]
  refine ⟨fun hm he hq => ?_, fun h => ?_⟩
  · have hbyte : m = flagByte (m == 1) := by
      have hcases : m.toNat = 0 ∨ m.toNat = 1 := by omega
      obtain h | h := hcases
      · rw [BitVec.eq_of_toNat_eq (y := 0) h]; rfl
      · rw [BitVec.eq_of_toNat_eq (y := 1) h]; rfl
    have hopt : readOption [m, e, q] 0 = some (m == 1) :=
      readOption_eq_some_iff.2 hbyte
    rw [interruptSetup_replaces hopt he hq, ← hbyte]
    rfl
  · have hopt : readOption [m, e, q] 0 = none ∨ 32 ≤ e.toNat ∨ 32 ≤ q.toNat :=
      h.imp_left readOption_eq_none_iff.2
    rw [interruptSetup_refused (p := [m, e, q]) hopt]

/-- Settles O38: an increment at the ceiling, and one below it. -/
theorem counterStandsAtCeiling : Obligations.CounterStandsAtCeiling := by
  intro c s
  by_cases h : counter s c < 65535
  · rw [count_below h]
    refine ⟨fun _ => by simp [counter], fun hle => absurd h (not_lt.2 hle), fun d hd => ?_, rfl, rfl⟩
    have hslot : c.slot.val ≠ d.slot.val := fun k => hd (Counter.slot_injective (Fin.ext k.symm))
    simp [counter, hslot]
  · have hge : 65535 ≤ counter s c := not_lt.1 h
    rw [counter_saturated hge]
    refine ⟨fun hlt => absurd hlt h, fun _ => rfl, fun _ _ => rfl, ?_, rfl⟩
    rw [if_neg (by omega)]

end Sys2Proof.Machine
end

section
/-! The bytes on the line and on the host port: the check, the frames the part sends (spec/12.1, spec/12.2),
and the two events of RESULT (spec/10.3). -/

namespace Sys2Proof.Machine

-- One lemma is elaborated after another, which keeps the check's memory low.
set_option Elab.async false

/-! ### The check (R185) -/

/-- While its highest bit is clear the register just shifts. -/
theorem crcShift_low {r : BitVec 16} {n : Nat} (hr : r.toNat = n) (hn : n < 32768) :
    (crcShift r).toNat = 2 * n := by
  have hmsb : r.msb = false := by
    rw [BitVec.msb_eq_decide, decide_eq_false_iff_not]
    omega
  rw [crcShift, if_neg (by rw [hmsb]; decide), BitVec.toNat_shiftLeft, hr, Nat.shiftLeft_eq]
  omega

/-- A byte equal to the register's high byte cancels it, and the low byte moves up. -/
theorem crcByte_high (r : BitVec 16) :
    crcByte r ((r >>> 8).setWidth 8) = (r.setWidth 8).setWidth 16 <<< 8 := by
  have hx : r ^^^ (((r >>> 8).setWidth 8).setWidth 16 <<< 8) = (r.setWidth 8).setWidth 16 := by
    ext k hk
    by_cases h8 : k < 8
    · simp [h8, BitVec.getLsbD_eq_getElem hk]
    · simp [h8, show 8 + (k - 8) = k by omega, show k - 8 < 8 by omega, BitVec.getLsbD_eq_getElem hk]
  have hn : ((r.setWidth 8).setWidth 16).toNat < 256 := by
    rw [BitVec.toNat_setWidth, BitVec.toNat_setWidth]
    omega
  rw [crcByte, hx]
  generalize (r.setWidth 8).setWidth 16 = x at hn
  obtain ⟨n, hxn⟩ : ∃ n, x.toNat = n := ⟨_, rfl⟩
  rw [hxn] at hn
  have h1 := crcShift_low hxn (by omega)
  have h2 := crcShift_low h1 (by omega)
  have h3 := crcShift_low h2 (by omega)
  have h4 := crcShift_low h3 (by omega)
  have h5 := crcShift_low h4 (by omega)
  have h6 := crcShift_low h5 (by omega)
  have h7 := crcShift_low h6 (by omega)
  have h8 := crcShift_low h7 (by omega)
  refine BitVec.eq_of_toNat_eq ?_
  rw [h8, BitVec.toNat_shiftLeft, hxn, Nat.shiftLeft_eq]
  omega

/-- A byte equal to the high byte of a register without a low byte empties it. -/
theorem crcByte_cancel (b : Byte) : crcByte (b.setWidth 16 <<< 8) b = 0 := by
  rw [crcByte, BitVec.xor_self]
  decide

/-- The register's own two bytes bring it to 0000h. -/
theorem checkBytes_residue (r : BitVec 16) : (checkBytes r).foldl crcByte r = 0 := by
  rw [checkBytes, List.foldl_cons, List.foldl_cons, List.foldl_nil, crcByte_high, crcByte_cancel]

theorem crc_append_check (bytes : List Byte) : crc (bytes ++ checkBytes (crc bytes)) = 0 := by
  rw [crc, List.foldl_append, ← crc, checkBytes_residue]

/-! ### Frames the part sends (R120, R185) -/

@[simp] theorem identityBytes_length (x : Identity) : (identityBytes x).length = 8 := beBytes_length _ _

@[simp] theorem word16Bytes_length (x : Word16) : (word16Bytes x).length = 2 := beBytes_length _ _

theorem foundBytes_length (r : FoundRecord) : r.bytes.length = 12 := by
  simp [FoundRecord.bytes]

theorem foundPayload_length (l : List FoundRecord) :
    (l.map FoundRecord.bytes).flatten.length = 12 * l.length := by
  induction l with
  | nil => rfl
  | cons r rest ih =>
    rw [List.map_cons, List.flatten_cons, List.length_append, ih, foundBytes_length,
      List.length_cons]
    omega

/-- No answer's payload is longer than the 60 bytes of a frame. -/
theorem payload_length_le {a : Answer} (h : ∀ c l, a = .found c l → l.length ≤ 4) :
    a.payload.length ≤ 60 := by
  cases a with
  | found c l =>
    have hl := h c l rfl
    simp only [Answer.payload, List.length_append, foundPayload_length, List.length_cons,
      List.length_nil]
    omega
  | _ => simp [Answer.payload]

theorem answerCode_range (a : Answer) : 8 ≤ a.code ∧ a.code ≤ 17 := by
  cases a <;> simp [Answer.code]

theorem oneByte_toNat {n : Nat} (h : n ≤ 255) : (oneByte n).toNat = n := by
  rw [oneByte, BitVec.toNat_ofNat]
  omega

theorem frameBytes_eq (d : Nat) (a : Answer) :
    frameBytes d a =
      oneByte d :: oneByte 0 :: oneByte a.code :: oneByte a.payload.length ::
        (a.payload ++ checkBytes (crc (frameBody d a))) := rfl

theorem frameBytes_length (d : Nat) (a : Answer) :
    (frameBytes d a).length = a.payload.length + 6 := by
  simp [frameBytes_eq, checkBytes]

/-- A frame sent passes the test of R120 and reads back as what was sent. -/
theorem readFrame_frameBytes {d : Nat} {a : Answer} (hd : d ≤ 255)
    (hp : a.payload.length ≤ 60) :
    readFrame (frameBytes d a) 0 = some ⟨d, 0, false, a.code, a.payload⟩ := by
  obtain ⟨hlo, hhi⟩ := answerCode_range a
  have hdest : (byteAt (frameBytes d a) 0).toNat = d := oneByte_toNat hd
  have hsource : (byteAt (frameBytes d a) 1).toNat = 0 := rfl
  have hcontrol : byteAt (frameBytes d a) 2 = oneByte a.code := rfl
  have hkind : (byteAt (frameBytes d a) 2).toNat % 32 = a.code := by
    rw [hcontrol, oneByte_toNat (by omega)]
    omega
  have hbound : (byteAt (frameBytes d a) 2).getLsbD 7 = false := by
    rw [hcontrol, oneByte, BitVec.getLsbD_ofNat, Nat.testBit_lt_two_pow (by omega), Bool.and_false]
  have hlen : (byteAt (frameBytes d a) 3).toNat = a.payload.length := oneByte_toNat (by omega)
  have hcrc : crc (frameBytes d a) = 0 := crc_append_check _
  have hpayload : ((frameBytes d a).drop 4).take a.payload.length = a.payload := by
    rw [frameBytes_eq]
    exact List.take_left
  simp only [readFrame, hdest, hsource, hkind, hbound, hlen, hpayload, hcrc, frameBytes_length]
  rw [if_neg]
  simp only [ne_eq, not_true_eq_false, false_or]
  omega

/-! ### RESULT (R161, R165) -/

section Result

variable {s : State}

theorem exec_result (hs : Listening s) : exec .result s = .next (fixReply s) := by
  refine congrArg Host.Outcome.next ?_
  obtain ⟨hwaits, _⟩ | ⟨_, htaken⟩ := takeTransaction_cases fixReply s
  · exact absurd hwaits hs
  · exact htaken

theorem fixReply_done {r : ResultRecord} (h : s.host.engine = .done r) :
    fixReply s = { s with host.transaction := .result r.bytes true } := by
  simp only [fixReply, h]

theorem fixReply_none (h : ∀ r, s.host.engine ≠ .done r) :
    fixReply s = { s with host.transaction := .result [noneByte] false } := by
  cases he : s.host.engine with
  | done r => exact absurd he (h r)
  | idle => simp only [fixReply, he]
  | executing c => simp only [fixReply, he]

theorem release_record {reply : List Byte} {n : Nat}
    (h : s.host.transaction = .result reply true) :
    exec (.resultRelease n) s =
      .next { s with
        host.transaction := .none
        host.engine := if reply.length ≤ n then .idle else s.host.engine } := by
  by_cases hn : reply.length ≤ n
  · simp only [exec, execResultRelease, h, if_pos hn]
    simp [hn]
  · simp only [exec, execResultRelease, h, if_neg hn]
    simp [hn]

theorem release_none {reply : List Byte} {n : Nat}
    (h : s.host.transaction = .result reply false) :
    exec (.resultRelease n) s = .next { s with host.transaction := .none } := by
  simp [exec, execResultRelease, h]

theorem release_other {n : Nat}
    (h : s.host.transaction = .filler ∨ ∃ w, s.host.transaction = .status w) :
    exec (.resultRelease n) s = .next { s with host.transaction := .none } := by
  obtain h | ⟨w, h⟩ := h
  · simp only [exec, execResultRelease, h]
  · simp only [exec, execResultRelease, h]

/-- The reply's bytes go out behind the filler of the code byte, most significant bit first. -/
theorem hostData_layout (s : State) :
    hostDataOut s 0 = 0xFF
      ∧ (∀ k, k < (replyBytes s).length → some (hostDataOut s (k + 1)) = (replyBytes s)[k]?)
      ∧ (∀ k, (replyBytes s).length ≤ k → hostDataOut s (k + 1) = 0xFF)
      ∧ ∀ k n, n < 8 → hostBitOut s (8 * k + n) = (hostDataOut s k).getLsbD (7 - n) := by
  refine ⟨rfl, fun k hk => ?_, fun k hk => ?_, fun k n hn => ?_⟩
  · simp [hostDataOut, hk]
  · simp [hostDataOut, fillerByte, hk]
  · rw [hostBitOut, show (8 * k + n) / 8 = k by omega, show (8 * k + n) % 8 = n by omega,
      BitVec.getMsbD]
    simp [hn]

end Result

/-! ### The obligations -/

/-- Settles O15: the two check bytes cancel the register one after the other. -/
theorem checkResidueZero : Obligations.CheckResidueZero :=
  ⟨crc_append_check, by decide +kernel⟩

/-- Settles O16: each part of a frame sent, as the frame test reads it. -/
theorem frameRoundTrip : Obligations.FrameRoundTrip :=
  fun _ _ hd ha => readFrame_frameBytes hd (payload_length_le ha)

/-- Settles O39: the reply that each engine state fixes, the bytes on the line, and each release. -/
theorem resultTakenAtTwoEvents : Obligations.ResultTakenAtTwoEvents := by
  refine ⟨fun s r hs hr => ⟨?_, rfl⟩, fun s hs hr => ⟨?_, rfl⟩, hostData_layout,
    fun s reply n h => release_record h, fun s reply n h => release_none h,
    fun s n h => release_other h⟩
  · rw [exec_result hs, fixReply_done hr]
    rfl
  · rw [exec_result hs, fixReply_none hr]
    rfl

end Sys2Proof.Machine
end

section
/-! What counting and sending leave, and the two answers that whole sets of contexts and records meet: the
HOLDOFF of a JOIN in SETTLING (spec/03.3) and SUSPEND's closing of the COLLECTING contexts (spec/08.1). -/

namespace Sys2Proof.Machine

-- One lemma is elaborated after another, which keeps the check's memory low.
set_option Elab.async false

/-! ### A request at the front (R124) -/

/-- The front request of its kind leaves the buffer as its owner takes it. -/
theorem dispatch_front {k : ReqKind} {owner : Request → State → State} {s : State} {r : Request}
    {rest : List Request} (h : Front s r rest) (hk : r.kind = k) :
    dispatch k owner s = owner r (popped rest s) := by
  have hinbound : s.port.inbound = r :: rest := h
  simp only [dispatch, hinbound, if_pos hk]
  rfl

/-! ### Counting (R154) -/

section Count

variable {c d : Counter} {s : State}

theorem counter_count (c : Counter) (s : State) :
    counter (count c s) c = if counter s c < 65535 then counter s c + 1 else counter s c := by
  split
  case isTrue h => rw [count_below h]; simp [counter]
  case isFalse h => rw [counter_saturated (not_lt.1 h)]

theorem counter_count_of_ne (h : d ≠ c) (s : State) : counter (count c s) d = counter s d :=
  (counterStandsAtCeiling c s).2.2.1 d h

theorem count_partCauses (c : Counter) (s : State) :
    (count c s).change.partCauses =
      if counter s c = 65534 then s.change.partCauses ||| partSaturated else s.change.partCauses :=
  (counterStandsAtCeiling c s).2.2.2.1

theorem count_entryCauses (c : Counter) (s : State) :
    (count c s).change.entryCauses = s.change.entryCauses := by
  by_cases h : counter s c < 65535
  · rw [count_below h]
  · rw [counter_saturated (not_lt.1 h)]

theorem getLsbD_count {n : Nat} (h : s.change.partCauses.getLsbD n = true) :
    (count c s).change.partCauses.getLsbD n = true := by
  rw [count_partCauses]
  split
  · rw [BitVec.getLsbD_or, h, Bool.true_or]
  · exact h

end Count

/-! ### Sending without a waiter (R125, R126) -/

section Send

variable {d : Nat} {a : Answer} {s : State}

/-- What sending can do to the change unit: nothing, or what a full queue does. -/
theorem send_change_cases (d : Nat) (a : Answer) (s : State) :
    (send d a s).change = s.change
      ∨ (send d a s).change = (setPart partQueueDrop (count .answerDrops s)).change := by
  rw [send]
  obtain ⟨_, h⟩ | ⟨_, _, h⟩ | ⟨_, _, _, _, _, _, h⟩ | ⟨_, _, _, _, _, _, h⟩ | ⟨_, _, _, _, _, _, h⟩ :=
    handOver_cases d a [] s
  all_goals rw [h]
  · exact Or.inl rfl
  · refine Or.inl ?_
    rw [takeUp_change]
  · exact Or.inl rfl
  · exact Or.inr rfl
  · exact Or.inl rfl

theorem counter_send {c : Counter} (h : c ≠ .answerDrops) (d : Nat) (a : Answer) (s : State) :
    counter (send d a s) c = counter s c := by
  obtain hsame | hdrop := send_change_cases d a s
  · rw [counter, hsame, counter]
  · rw [counter, hdrop]
    exact counter_count_of_ne h s

theorem send_entryCauses (d : Nat) (a : Answer) (s : State) :
    (send d a s).change.entryCauses = s.change.entryCauses := by
  obtain h | h := send_change_cases d a s
  · rw [h]
  · rw [h]
    exact count_entryCauses _ s

theorem getLsbD_send {n : Nat} (h : s.change.partCauses.getLsbD n = true) :
    (send d a s).change.partCauses.getLsbD n = true := by
  obtain hc | hc := send_change_cases d a s
  · rwa [hc]
  · rw [hc]
    show ((count .answerDrops s).change.partCauses ||| partQueueDrop).getLsbD n = true
    rw [BitVec.getLsbD_or, getLsbD_count h, Bool.true_or]

theorem handOver_inbound (d : Nat) (a : Answer) (ws : List Waiter) (s : State) :
    (handOver d a ws s).port.inbound = s.port.inbound := by
  obtain ⟨_, h⟩ | ⟨_, _, h⟩ | ⟨_, _, _, _, _, _, h⟩ | ⟨_, _, _, _, _, _, h⟩ | ⟨_, _, _, _, _, _, h⟩ :=
    handOver_cases d a ws s
  all_goals rw [h]
  · rw [reportAll_port]
  · obtain ⟨_, ht⟩ | ⟨_, ht⟩ :=
      takeUp_cases { s with port.queue := [newMessage d a ws s] }
    all_goals rw [ht]
  · rw [reportAll_port, setPart_port, count_port]

theorem send_inbound (d : Nat) (a : Answer) (s : State) :
    (send d a s).port.inbound = s.port.inbound := handOver_inbound d a [] s

/-- A message for which there is room, and no identical one waiting, joins the back of the queue. -/
theorem send_joins (hp : s.phase.phase ≠ .offline) (hroom : s.port.queue.length < 16)
    (hnew : ∀ m ∈ s.port.queue.tail, ¬ (m.destination = d ∧ m.answer = a)) :
    (send d a s).port.queue = s.port.queue ++ [⟨d, a, s.now, 0, []⟩]
      ∧ (send d a s).change = s.change := by
  rw [send, handOver, if_neg hp]
  cases hq : s.port.queue with
  | nil =>
    obtain ⟨_, ht⟩ | ⟨_, ht⟩ := takeUp_cases { s with port.queue := [newMessage d a [] s] }
    all_goals
      simp only [ht]
      exact ⟨rfl, trivial⟩
  | cons m rest =>
    rw [hq] at hroom hnew
    have hmerge : mergeInto d a [] rest = none := mergeInto_none.2 hnew
    have hfull : ¬ Config.queueMessages ≤ rest.length + 1 := not_le.2 hroom
    simp only [hmerge, if_neg hfull]
    exact ⟨rfl, trivial⟩

end Send

/-! ### The deferral list (R54) -/

section Deferrals

variable {x : Identity} {l : List Deferral}

theorem dropDeferral_eq (x : Identity) (l : List Deferral) :
    dropDeferral x l = l.filter (fun d => d.identity ≠ x) := by
  rw [dropDeferral]
  exact List.filter_congr fun d _ => by by_cases h : d.identity = x <;> simp [h]

theorem deferCount_absent (h : ∀ d ∈ l, d.identity ≠ x) : deferCount l x = 0 := by
  have hfind : l.find? (fun d => d.identity == x) = none :=
    List.find?_eq_none.2 fun d hd => by simpa using h d hd
  simp only [deferCount, hfind]

theorem deferCount_present {d : Deferral} (hd : d ∈ l) (hx : d.identity = x)
    (hu : (l.map Deferral.identity).Nodup) : deferCount l x = d.count := by
  have hsome : (l.find? (fun e => e.identity == x)).isSome = true := by
    rw [List.find?_isSome]
    exact ⟨d, hd, by simp [hx]⟩
  obtain ⟨e, he⟩ := Option.isSome_iff_exists.1 hsome
  have hex : e.identity = x := by simpa using List.find?_some he
  have heq : e = d :=
    List.inj_on_of_nodup_map hu (List.mem_of_find?_eq_some he) hd (hex.trans hx.symm)
  simp only [deferCount, he, heq]

/-- The front record's count is the identity's. -/
theorem deferCount_front (n : Nat) : deferCount (⟨x, n⟩ :: l) x = n := by
  simp [deferCount]

/-- An identity with a record: the record moves to the front with its count risen (R54). -/
theorem deferHoldoff_present {d : Deferral} (hd : d ∈ l) (hx : d.identity = x)
    (hu : (l.map Deferral.identity).Nodup) (hl : l.length ≤ 16) :
    deferHoldoff x l = ⟨x, min (d.count + 1) 255⟩ :: l.filter (fun d => d.identity ≠ x) := by
  have hshort : (l.filter (fun d => d.identity ≠ x)).length < l.length :=
    List.length_filter_lt_length_iff_exists.2 ⟨d, hd, by simp [hx]⟩
  rw [deferHoldoff, deferCount_present hd hx hu, dropDeferral_eq]
  refine List.take_of_length_le ?_
  simp only [List.length_cons, Config.deferralRecords]
  omega

/-- An identity without a record enters at the front, and the last of sixteen falls off the back. -/
theorem deferHoldoff_absent (h : ∀ d ∈ l, d.identity ≠ x) (hl : l.length ≤ 16) :
    deferHoldoff x l = ⟨x, 1⟩ :: if l.length < 16 then l else l.dropLast := by
  have hdrop : dropDeferral x l = l := by
    rw [dropDeferral_eq, List.filter_eq_self]
    exact fun d hd => by simpa using h d hd
  rw [deferHoldoff, deferCount_absent h, hdrop]
  simp only [Config.deferralRecords, List.take_succ_cons]
  congr 1
  split
  case isTrue hlt => exact List.take_of_length_le (by omega)
  case isFalse hge => rw [List.dropLast_eq_take, show l.length - 1 = 15 by omega]

/-- A HOLDOFF through the deferral list carries the front record's count, up to 7 (R55, R56). -/
theorem holdoff_eq {n : Nat} {s : State} (h : deferHoldoff x s.admission.deferrals = ⟨x, n⟩ :: l) :
    holdoff x s =
      send 254 (.holdoff x (min n 7) s.phase.params.holdoffUnit)
        (count .holdoffs { s with admission.deferrals := ⟨x, n⟩ :: l }) := by
  simp only [holdoff, h, deferCount_front]
  rfl

/-- A JOIN in SETTLING is held off whatever its content (R65). -/
theorem exec_join_settling {s : State} {r : Request} {rest : List Request} (hf : Front s r rest)
    (hk : r.kind = .join) (hr : r.source = 254) (hp : s.phase.phase = .settling) :
    exec .join s = .next (holdoff (payloadIdentity r.payload) (popped rest s)) := by
  have hsource : ¬ r.source ≠ Config.anonymous := not_not.2 hr
  have hphase : (popped rest s).phase.phase = .settling := hp
  rw [exec, execJoin, dispatch_front hf hk]
  simp only [takeJoin, if_neg hsource, if_pos hphase]
  rfl

end Deferrals

/-- Settles O26: the identity has one record, or none. -/
theorem joinHeldOffInSettling : Obligations.JoinHeldOffInSettling := by
  intro s r rest hf hk hr hp hl hu
  rw [exec_join_settling hf hk hr hp]
  by_cases hrecord : ∃ d ∈ s.admission.deferrals, d.identity = payloadIdentity r.payload
  · obtain ⟨d, hd, hx⟩ := hrecord
    refine ⟨min (d.count + 1) 255, _, ?_, fun e he hex => ⟨?_, rfl⟩, fun h => absurd hx (h d hd)⟩
    · rw [holdoff_eq (s := popped rest s) (deferHoldoff_present hd hx hu hl)]
      rfl
    · rw [List.inj_on_of_nodup_map hu he hd (hex.trans hx.symm)]
  · have hnone : ∀ d ∈ s.admission.deferrals, d.identity ≠ payloadIdentity r.payload :=
      fun d hd hx => hrecord ⟨d, hd, hx⟩
    refine ⟨1, _, ?_, fun d hd hx => absurd hx (hnone d hd), fun _ => ⟨rfl, rfl⟩⟩
    rw [holdoff_eq (s := popped rest s) (deferHoldoff_absent hnone hl)]
    rfl

end Sys2Proof.Machine
end

section
/-! SUSPEND (spec/08.1): what closing the COLLECTING contexts one after another leaves, and the messages that
join the answer queue where there is room. -/

namespace Sys2Proof.Machine

-- One lemma is elaborated after another, which keeps the check's memory low.
set_option Elab.async false

/-! ### One context -/

/-- One step of SUSPEND's sweep: a COLLECTING context is closed with REFUSE(SUSPENDED). -/
def closeIfCollecting (s : State) (c : CtxNum) : State :=
  if collectingNow s c then closeUnasked c .suspended s else s

theorem closeCollecting_eq (s : State) :
    closeCollecting s = (List.finRange 8).foldl closeIfCollecting s := rfl

theorem collectingNow_iff {s : State} {c : CtxNum} :
    collectingNow s c = true ↔ ∃ x d, context s c = some x ∧ x.stage = .collecting d := by
  rw [collectingNow, Option.any_eq_true]
  constructor
  · rintro ⟨x, hx, hstage⟩
    cases hs : x.stage with
    | collecting d => exact ⟨x, d, hx, hs⟩
    | checking n t => simp [hs] at hstage
    | offered o => simp [hs] at hstage
  · rintro ⟨x, d, hx, hs⟩
    exact ⟨x, hx, by simp [hs]⟩

theorem collectingNow_congr {s t : State} {c : CtxNum} (h : context t c = context s c) :
    collectingNow t c = collectingNow s c := by
  rw [collectingNow, h, collectingNow]

/-- The state in which a context is IDLE and one more free value is drawn. -/
def idled (c : CtxNum) (s : State) : State :=
  { s with join.contexts := s.join.contexts.set c none, freeUsed := s.freeUsed + 1 }

theorem context_idled (c d : CtxNum) (s : State) :
    context (idled c s) d = if d = c then none else context s d :=
  context_setContext c d none s

theorem closeUnasked_unoffered {s : State} {c : CtxNum} {x : Exchange} (r : Reason)
    (hx : context s c = some x) (ho : ∀ o, x.stage ≠ .offered o) :
    closeUnasked c r s =
      send 254 (.refuse x.identity (Config.closingKind s.freeUsed) r)
        (count .refusals (idled c s)) :=
  closeRefused_eq (s := { s with freeUsed := s.freeUsed + 1 }) _ r hx ho

/-- The REFUSE that closes a COLLECTING context. -/
theorem closeIfCollecting_closes {s : State} {c : CtxNum} {x : Exchange} {d : Nat}
    (hx : context s c = some x) (hs : x.stage = .collecting d) :
    closeIfCollecting s c =
      send 254 (.refuse x.identity (Config.closingKind s.freeUsed) .suspended)
        (count .refusals (idled c s)) := by
  rw [closeIfCollecting, if_pos (collectingNow_iff.2 ⟨x, d, hx, hs⟩),
    closeUnasked_unoffered _ hx (by rw [hs]; nofun)]

theorem closeIfCollecting_passes {s : State} {c : CtxNum} (h : collectingNow s c = false) :
    closeIfCollecting s c = s := by
  rw [closeIfCollecting, if_neg (by rw [h]; decide)]

/-! ### The whole sweep -/

/-- What closing the COLLECTING contexts among `l` makes of a state (R84, R140). -/
structure SweptFrom (l : List CtxNum) (s t : State) : Prop where
  contexts : ∀ c, context t c = if c ∈ l ∧ collectingNow s c = true then none else context s c
  refusals : counter t .refusals =
    min (max 65535 (counter s .refusals)) (counter s .refusals + l.countP (collectingNow s))
  table : t.table = s.table
  lease : t.lease = s.lease
  admission : t.admission = s.admission
  lookup : t.lookup = s.lookup
  phase : t.phase = s.phase
  host : t.host = s.host
  inbound : t.port.inbound = s.port.inbound
  entryCauses : t.change.entryCauses = s.change.entryCauses
  partCauses : ∀ n, s.change.partCauses.getLsbD n = true → t.change.partCauses.getLsbD n = true

/-- Closing one context leaves the others as they were. -/
theorem closeIfCollecting_swept (s : State) (c : CtxNum) : SweptFrom [c] s (closeIfCollecting s c) := by
  cases hc : collectingNow s c with
  | false =>
    rw [closeIfCollecting_passes hc]
    refine ⟨fun d => ?_, ?_, rfl, rfl, rfl, rfl, rfl, rfl, rfl, rfl, fun _ h => h⟩
    · rw [if_neg]
      rintro ⟨hd, h⟩
      rw [List.mem_singleton.1 hd, hc] at h
      cases h
    · simp [hc]
  | true =>
    obtain ⟨x, d, hx, hs⟩ := collectingNow_iff.1 hc
    rw [closeIfCollecting_closes hx hs]
    refine ⟨fun e => ?contexts, ?refusals, ?_, ?_, ?_, ?_, ?_, ?_, ?inbound, ?causes, fun n hn => ?part⟩
    case contexts =>
      have hctx : context (send 254 (.refuse x.identity (Config.closingKind s.freeUsed) .suspended)
          (count .refusals (idled c s))) e = context (idled c s) e := by
        rw [context, send_join, count_join, context]
      rw [hctx, context_idled]
      by_cases he : e = c
      · simp [he, hc]
      · simp [he]
    case refusals =>
      rw [counter_send (by decide), counter_count]
      have hsame : counter (idled c s) .refusals = counter s .refusals := rfl
      simp only [hsame, List.countP_singleton, hc, if_true]
      split <;> omega
    case inbound => rw [send_inbound, count_port]; rfl
    case causes => rw [send_entryCauses, count_entryCauses]; rfl
    case part => exact getLsbD_send (getLsbD_count hn)
    all_goals simp [idled]

theorem SweptFrom.collecting {l : List CtxNum} {s t : State} {c : CtxNum} (h : SweptFrom l s t)
    (hc : c ∉ l) : collectingNow t c = collectingNow s c :=
  collectingNow_congr (by rw [h.contexts, if_neg fun hm => hc hm.1])

theorem sweep_swept {l : List CtxNum} (hl : l.Nodup) (s : State) :
    SweptFrom l s (l.foldl closeIfCollecting s) := by
  induction l generalizing s with
  | nil =>
    exact ⟨fun c => by simp, by simp, rfl, rfl, rfl, rfl, rfl, rfl, rfl, rfl, fun _ h => h⟩
  | cons c l ih =>
    obtain ⟨hc, hl⟩ := List.nodup_cons.1 hl
    have h1 := closeIfCollecting_swept s c
    have h2 := ih hl (closeIfCollecting s c)
    have hrest : ∀ d ∈ l, collectingNow (closeIfCollecting s c) d = collectingNow s d := fun d hd =>
      h1.collecting fun hm => hc (by rwa [← List.mem_singleton.1 hm])
    rw [List.foldl_cons]
    refine ⟨fun d => ?contexts, ?refusals, h2.table.trans h1.table, h2.lease.trans h1.lease,
      h2.admission.trans h1.admission, h2.lookup.trans h1.lookup, h2.phase.trans h1.phase,
      h2.host.trans h1.host, h2.inbound.trans h1.inbound, h2.entryCauses.trans h1.entryCauses,
      fun n hn => h2.partCauses n (h1.partCauses n hn)⟩
    case contexts =>
      rw [h2.contexts, h1.contexts]
      by_cases hdc : d = c
      · subst hdc
        simp [hc]
      · by_cases hd : d ∈ l
        · simp [hd, hdc, hrest d hd]
        · simp [hd, hdc]
    case refusals =>
      have hcount : l.countP (collectingNow (closeIfCollecting s c)) = l.countP (collectingNow s) :=
        List.countP_congr fun d hd => by rw [hrest d hd]
      have hone := h1.refusals
      rw [List.countP_singleton] at hone
      rw [h2.refusals, hcount, hone, List.countP_cons]
      omega

/-! ### The messages of the sweep -/

/-- The REFUSE(SUSPENDED) of a context, with the kind given, as it joins the queue of state `s`. -/
def suspendedMessages (kind : CtxNum → ReqKind) (s : State) (c : CtxNum) : List QueuedMessage :=
  (context s c).toList.map (fun x => ⟨254, .refuse x.identity (kind c) .suspended, s.now, 0, []⟩)

/-- No REFUSE(SUSPENDED) of a context among `l` waits in the queue. -/
def NoneWaits (l : List CtxNum) (s : State) : Prop :=
  ∀ m ∈ s.port.queue.tail, ∀ c ∈ l, ∀ x k, context s c = some x →
    m.answer ≠ .refuse x.identity k .suspended

theorem ContextsUnique.idled {s t : State} {c : CtxNum} (h : ContextsUnique s)
    (ht : ∀ d, context t d = if d = c then none else context s d) : ContextsUnique t := by
  intro d e x y hx hy hxy
  rw [ht] at hx hy
  split at hx
  · cases hx
  split at hy
  · cases hy
  exact h d e x y hx hy hxy

theorem mem_tail_append {α : Type} {m : α} {l l' : List α} (h : m ∈ (l ++ l').tail) :
    m ∈ l.tail ∨ m ∈ l' := by
  cases l with
  | nil => exact Or.inr (List.mem_of_mem_tail h)
  | cons a l => simpa using h

theorem suspendedMessages_congr {s t : State} {c : CtxNum} {kind kind' : CtxNum → ReqKind}
    (hctx : context t c = context s c) (hnow : t.now = s.now) (hk : kind' c = kind c) :
    suspendedMessages kind' t c = suspendedMessages kind s c := by
  rw [suspendedMessages, hctx, hnow, hk, suspendedMessages]

/-- With room and no identical one waiting, the REFUSE of a closed context joins the back. -/
theorem closeIfCollecting_joins {s : State} {c : CtxNum} {x : Exchange} {d : Nat}
    (hx : context s c = some x) (hs : x.stage = .collecting d) (hp : s.phase.phase ≠ .offline)
    (hroom : s.port.queue.length < 16)
    (hnew : ∀ m ∈ s.port.queue.tail,
      m.answer ≠ .refuse x.identity (Config.closingKind s.freeUsed) .suspended) :
    (closeIfCollecting s c).port.queue =
        s.port.queue ++
          [⟨254, .refuse x.identity (Config.closingKind s.freeUsed) .suspended, s.now, 0, []⟩]
      ∧ (closeIfCollecting s c).change = (count .refusals (idled c s)).change := by
  have hqueue : (count .refusals (idled c s)).port.queue = s.port.queue := by
    rw [count_port]; rfl
  have hjoin := send_joins (d := 254)
    (a := .refuse x.identity (Config.closingKind s.freeUsed) .suspended)
    (s := count .refusals (idled c s)) (by rw [count_phase]; exact hp) (by rwa [hqueue])
    (fun m hm hsame => hnew m (by rwa [hqueue] at hm) hsame.2)
  rw [hqueue, count_now] at hjoin
  rw [closeIfCollecting_closes hx hs]
  exact hjoin

/-- With room for them and none waiting, the messages join the back in the order of the contexts. -/
theorem sweep_messages {l : List CtxNum} (hl : l.Nodup) {s : State} (hp : s.phase.phase ≠ .offline)
    (hcount : counter s .refusals + l.countP (collectingNow s) < 65535)
    (hroom : s.port.queue.length + l.countP (collectingNow s) ≤ 16) (hu : ContextsUnique s)
    (hnew : NoneWaits l s) :
    (l.foldl closeIfCollecting s).change.partCauses = s.change.partCauses
      ∧ ∃ kind, (l.foldl closeIfCollecting s).port.queue =
          s.port.queue ++ (l.filter (collectingNow s)).flatMap (suspendedMessages kind s) := by
  induction l generalizing s with
  | nil => exact ⟨rfl, fun _ => .join, by simp⟩
  | cons c l ih =>
    obtain ⟨hcl, hl⟩ := List.nodup_cons.1 hl
    have hnewl : NoneWaits l s := fun m hm d hd => hnew m hm d (List.mem_cons_of_mem c hd)
    rw [List.foldl_cons]
    cases hc : collectingNow s c with
    | false =>
      rw [closeIfCollecting_passes hc, List.filter_cons_of_neg (by simp [hc])]
      rw [List.countP_cons_of_neg (by simp [hc])] at hcount hroom
      exact ih hl hp hcount hroom hu hnewl
    | true =>
      rw [List.countP_cons_of_pos (by simp [hc])] at hcount hroom
      obtain ⟨x, d, hx, hs⟩ := collectingNow_iff.1 hc
      have hswept := closeIfCollecting_swept s c
      have hstep := closeIfCollecting_closes hx hs
      obtain ⟨hqueue, hchange⟩ := closeIfCollecting_joins hx hs hp (by omega)
        fun m hm => hnew m hm c List.mem_cons_self x _ hx
      generalize closeIfCollecting s c = u at hswept hstep hqueue hchange ⊢
      have hnow : u.now = s.now := by rw [hstep, send_now, count_now]; rfl
      have hctx : ∀ e, context u e = if e = c then none else context s e := by
        intro e
        rw [hswept.contexts]
        by_cases he : e = c
        · simp [he, hc]
        · simp [he]
      have hother : ∀ e ∈ l, e ≠ c := fun e he hec => hcl (hec ▸ he)
      have hkept : ∀ e ∈ l, context u e = context s e := fun e he => by
        rw [hctx, if_neg (hother e he)]
      have hcollect : ∀ e ∈ l, collectingNow u e = collectingNow s e := fun e he =>
        collectingNow_congr (hkept e he)
      have hcountP : l.countP (collectingNow u) = l.countP (collectingNow s) :=
        List.countP_congr fun e he => by rw [hcollect e he]
      have hrefusals : counter u .refusals = counter s .refusals + 1 := by
        rw [counter, hchange]
        refine (counter_count .refusals (idled c s)).trans (if_pos ?_)
        show counter s .refusals < 65535
        omega
      obtain ⟨hpart, kind, hall⟩ := ih hl (s := u) (by rw [hswept.phase]; exact hp)
        (by rw [hrefusals, hcountP]; omega)
        (by rw [hqueue, hcountP, List.length_append, List.length_singleton]; omega)
        (hu.idled hctx) (by
          intro m hm e he y k hy
          rw [hkept e he] at hy
          rw [hqueue] at hm
          obtain hold | hlast := mem_tail_append hm
          · exact hnewl m hold e he y k hy
          · rw [List.mem_singleton.1 hlast]
            intro heq
            injection heq with hid _ _
            exact hother e he (hu e c y x hy hx hid.symm))
      refine ⟨?_, Function.update kind c (Config.closingKind s.freeUsed), ?_⟩
      · rw [hpart, hchange, count_partCauses, if_neg]
        · rfl
        · show counter s .refusals ≠ 65534
          omega
      · have hhead : suspendedMessages (Function.update kind c (Config.closingKind s.freeUsed)) s c =
            [⟨254, .refuse x.identity (Config.closingKind s.freeUsed) .suspended, s.now, 0, []⟩] := by
          simp [suspendedMessages, hx]
        have hfilter : l.filter (collectingNow u) = l.filter (collectingNow s) :=
          List.filter_congr fun e he => hcollect e he
        have htail : (l.filter (collectingNow s)).flatMap (suspendedMessages kind u) =
            (l.filter (collectingNow s)).flatMap
              (suspendedMessages (Function.update kind c (Config.closingKind s.freeUsed)) s) := by
          refine List.flatMap_congr fun e he => ?_
          have hel := List.mem_of_mem_filter he
          exact (suspendedMessages_congr (hkept e hel).symm hnow.symm
            (Function.update_of_ne (hother e hel) _ _)).symm
        rw [hall, hqueue, hfilter, htail, List.filter_cons_of_pos hc, List.flatMap_cons, hhead,
          List.append_assoc]

/-! ### SUSPEND -/

section Suspend

variable {f : CommandFrame} {s : State}

theorem exec_suspend (hs : Ready s) (hf : Framed 0x05 f) (hp : f.params = []) :
    exec (.suspend f) s = .next (suspend (accept f s)) :=
  congrArg Host.Outcome.next (takeCommand_taken hs hf (by simp [hp]) (by simp [hp]))

theorem suspend_refused (h : s.phase.phase ≠ .active) :
    suspend (accept f s) = completed f .phase [] s s := by
  rw [suspend, accept_phase, if_neg h, finish_accept]

theorem suspend_sweeps (h : s.phase.phase = .active) :
    suspend (accept f s) =
      completed f .ok [3] s (closeCollecting (enterPhase .suspended (accept f s))) := by
  have hhost : (closeCollecting (enterPhase .suspended (accept f s))).host = (accept f s).host :=
    (sweep_swept (List.nodup_finRange 8) _).host
  rw [suspend, accept_phase, if_pos h, finish_of_host_eq_accept _ _ hhost]
  rfl

end Suspend

/-- Settles O20: outside ACTIVE the refusal; in ACTIVE the sweep over the eight contexts. -/
theorem suspendClosesCollecting : Obligations.SuspendClosesCollecting := by
  intro f s hs hf hp
  rw [exec_suspend hs hf hp]
  refine ⟨fun h => by rw [suspend_refused h], fun h => ⟨_, rfl, ?_⟩⟩
  rw [suspend_sweeps h]
  have hswept := sweep_swept (List.nodup_finRange 8) (enterPhase .suspended (accept f s))
  have hmessages := sweep_messages (List.nodup_finRange 8) (s := enterPhase .suspended (accept f s))
    (by rw [enterPhase_phase]; nofun)
  rw [← closeCollecting_eq] at hswept hmessages
  generalize closeCollecting (enterPhase .suspended (accept f s)) = t at hswept hmessages ⊢
  refine ⟨rfl, hswept.phase, fun c => ?_, hswept.refusals, hswept.table, hswept.lease,
    hswept.admission, hswept.lookup, hswept.inbound, hswept.entryCauses, hswept.partCauses 0 ?_,
    fun hcount hroom hu hnew => ?_⟩
  · refine (hswept.contexts c).trans ?_
    simp only [List.mem_finRange, true_and]
    rfl
  · show (s.change.partCauses ||| partPhase).getLsbD 0 = true
    rw [BitVec.getLsbD_or, show partPhase.getLsbD 0 = true from rfl, Bool.or_true]
  · have hle : (List.finRange 8).countP (collectingNow s) ≤ 8 :=
      List.countP_le_length.trans (by simp)
    exact hmessages (Nat.lt_of_le_of_lt (Nat.add_le_add_left hle _)
        (show counter s .refusals + 8 < 65535 by omega))
      ((Nat.add_le_add_left hle _).trans (show s.port.queue.length + 8 ≤ 16 by omega)) hu
      fun m hm c _ x k _ => hnew m hm _ k

end Sys2Proof.Machine
end

section
/-! DISABLE and PORT-RESTART (spec/07.8, spec/08.1, spec/11.8): what their teardown leaves of contexts,
entries, lists and queues. -/

namespace Sys2Proof.Machine

-- One lemma is elaborated after another, which keeps the check's memory low.
set_option Elab.async false

/-! ### Closing all contexts: the entries (R84) -/

/-- A context among `l` has made the offer of entry `i`. -/
def OfferedAmong (l : List CtxNum) (i : Index) (s : State) : Prop :=
  ∃ c ∈ l, ∃ x o, context s c = some x ∧ x.stage = .offered o ∧ o.entry = i

/-- What closing one context does besides making it IDLE: it writes entries and their causes alone. -/
theorem closeContext_eq (c : CtxNum) (s : State) :
    closeContext c s =
      { s with
        table := (closeContext c s).table, join := (closeContext c s).join
        change.entryCauses := (closeContext c s).change.entryCauses } := by
  obtain ⟨_, h⟩ | ⟨x, _, _, h⟩ | ⟨x, o, _, _, h⟩ := closeContext_cases c s
  · rw [h]
  · rw [h]; rfl
  · obtain ⟨_, hw⟩ | ⟨_, hw⟩ := withdraw_cases o.entry s
    · rw [h, hw]; rfl
    · rw [h, hw]; rfl

theorem closing_each_eq (l : List CtxNum) (s : State) :
    l.foldl (fun s c => closeContext c s) s =
      { s with
        table := (l.foldl (fun s c => closeContext c s) s).table
        join := (l.foldl (fun s c => closeContext c s) s).join
        change.entryCauses := (l.foldl (fun s c => closeContext c s) s).change.entryCauses } := by
  induction l generalizing s with
  | nil => rfl
  | cons c l ih =>
    rw [List.foldl_cons, ih]
    generalize l.foldl (fun s c => closeContext c s) (closeContext c s) = t
    rw [closeContext_eq]

/-- Closing a context frees its offer's entry while that is RESERVED. -/
theorem closeContext_releasedAt {s : State} {c : CtxNum} {i : Index}
    (hr : (entry s i).state = .reserved) (ho : OfferedAmong [c] i s) :
    ReleasedAt i s (closeContext c s) := by
  obtain ⟨d, hd, x, o, hx, hs, hi⟩ := ho
  obtain rfl := List.mem_singleton.1 hd
  obtain ⟨hnone, _⟩ | ⟨y, hy, hoff, _⟩ | ⟨y, p, hy, hp, h⟩ := closeContext_cases d s
  · rw [hx] at hnone; cases hnone
  · rw [hx] at hy; cases hy; exact absurd hs (hoff o)
  · rw [hx] at hy; cases hy
    rw [hs] at hp; cases hp
    rw [h, withdraw, hi, if_pos hr]
    exact (freeEntry_releasedAt (Entry.occupied_iff.2 (by rw [hr]; decide))).trans_keptAt
      ⟨rfl, rfl⟩

/-- Closing a context leaves every entry as it was that it does not hold RESERVED. -/
theorem closeContext_keptAt {s : State} {c : CtxNum} {i : Index}
    (h : ¬ ((entry s i).state = .reserved ∧ OfferedAmong [c] i s)) :
    KeptAt i s (closeContext c s) := by
  obtain ⟨_, hs⟩ | ⟨y, _, _, hs⟩ | ⟨y, p, hy, hp, hs⟩ := closeContext_cases c s
  · rw [hs]; exact KeptAt.refl i s
  · rw [hs]; exact ⟨rfl, rfl⟩
  · rw [hs]
    obtain ⟨hr, hw⟩ | ⟨_, hw⟩ := withdraw_cases p.entry s
    · rw [hw]
      have hne : i ≠ p.entry := fun hi =>
        h ⟨hi ▸ hr, c, List.mem_singleton_self c, y, p, hy, hp, hi.symm⟩
      exact (freeEntry_keptAt hne s).trans ⟨rfl, rfl⟩
    · rw [hw]; exact ⟨rfl, rfl⟩

theorem offeredAmong_cons {c : CtxNum} {l : List CtxNum} {i : Index} {s : State} :
    OfferedAmong (c :: l) i s ↔ OfferedAmong [c] i s ∨ OfferedAmong l i s := by
  simp [OfferedAmong]

/-- An offer that context `c` has not made stands after `c` is closed, and none is made by closing. -/
theorem offeredAmong_closeContext {c : CtxNum} {l : List CtxNum} {i : Index} {s : State}
    (h : ¬ OfferedAmong [c] i s) : OfferedAmong l i (closeContext c s) ↔ OfferedAmong l i s := by
  constructor
  · rintro ⟨d, hd, x, o, hx, ho⟩
    rw [context_closeContext] at hx
    split at hx
    · cases hx
    · exact ⟨d, hd, x, o, hx, ho⟩
  · rintro ⟨d, hd, x, o, hx, ho⟩
    refine ⟨d, hd, x, o, ?_, ho⟩
    rw [context_closeContext, if_neg fun hdc => h ⟨d, List.mem_singleton.2 hdc, x, o, hx, ho⟩]
    exact hx

/-- Every entry RESERVED for a context of the list is freed once, and every other one stands. -/
theorem closing_each_entries (l : List CtxNum) (s : State) (i : Index) :
    ((entry s i).state = .reserved ∧ OfferedAmong l i s →
        ReleasedAt i s (l.foldl (fun s c => closeContext c s) s))
      ∧ (¬ ((entry s i).state = .reserved ∧ OfferedAmong l i s) →
        KeptAt i s (l.foldl (fun s c => closeContext c s) s)) := by
  induction l generalizing s with
  | nil => exact ⟨fun ⟨_, _, hc, _⟩ => absurd hc List.not_mem_nil, fun _ => KeptAt.refl i s⟩
  | cons c l ih =>
    rw [List.foldl_cons, offeredAmong_cons]
    obtain ⟨hreleased, hkept⟩ := ih (closeContext c s)
    by_cases hc : (entry s i).state = .reserved ∧ OfferedAmong [c] i s
    · have hone := closeContext_releasedAt hc.1 hc.2
      refine ⟨fun _ => hone.trans_keptAt (hkept fun hn => ?_), fun hn => absurd ⟨hc.1, Or.inl hc.2⟩ hn⟩
      rw [hone.state_free] at hn
      exact absurd hn.1 (by decide)
    · have hone := closeContext_keptAt hc
      rw [hone.1] at hreleased hkept
      have hiff : (entry s i).state = .reserved ∧ OfferedAmong l i (closeContext c s)
          ↔ (entry s i).state = .reserved ∧ (OfferedAmong [c] i s ∨ OfferedAmong l i s) := by
        refine and_congr_right fun hr => ?_
        have hno : ¬ OfferedAmong [c] i s := fun ho => hc ⟨hr, ho⟩
        rw [offeredAmong_closeContext hno, or_iff_right hno]
      rw [hiff] at hreleased hkept
      exact ⟨fun h => hone.trans_releasedAt (hreleased h), fun h => hone.trans (hkept h)⟩

theorem closeAll_eq (s : State) :
    closeAll s =
      { s with
        table := (closeAll s).table, join := (closeAll s).join
        change.entryCauses := (closeAll s).change.entryCauses } := by
  unfold closeAll
  exact closing_each_eq _ s

theorem closeAll_releasedAt {s : State} {i : Index} (h : ReservedOffered s)
    (hr : (entry s i).state = .reserved) : ReleasedAt i s (closeAll s) := by
  obtain ⟨c, x, o, hx, hs, hi⟩ := h i hr
  exact (closing_each_entries _ s i).1 ⟨hr, c, List.mem_finRange c, x, o, hx, hs, hi⟩

theorem closeAll_keptAt {s : State} {i : Index} (hr : (entry s i).state ≠ .reserved) :
    KeptAt i s (closeAll s) := (closing_each_entries _ s i).2 fun h => hr h.1

/-! ### Nobody to tell (R131) -/

/-- With every context IDLE and no notice in hand, a report changes nothing. -/
theorem reportAll_idle {s : State} (hc : ∀ c, context s c = none) (hn : noticeInHand s = false)
    (o : NoticeOutcome) (ws : List Waiter) : reportAll o ws s = s := by
  induction ws with
  | nil => rfl
  | cons w ws ih =>
    have hone : reportTo o w s = s := by
      obtain h | ⟨c, _, x, _, _, hx, _⟩ | ⟨r, i, g, _, he, hw, _⟩ := reportTo_cases o w s
      · exact h
      · rw [hc] at hx; cases hx
      · rw [noticeInHand, workInHand, he] at hn
        simp only [hw] at hn
        cases hn
    show reportAll o ws (reportTo o w s) = s
    rw [hone, ih]

/-! ### The teardown (R134, R142, R183) -/

/-- Without a LOOKUP of the host, the lookup unit is left empty and the arbiter starts nothing (R118). -/
theorem purgeLookups_bus {s : State} (hslot : s.lookup.hostSlot = none) (hwalk : hostWalking s = false) :
    purgeLookups s = { s with lookup.walk := none, lookup.busWaiting := [] } := by
  simp only [purgeLookups]
  split
  case h_1 hw => simp only [arbitrate, hslot]
  case h_2 hw => rw [hostWalking, show s.lookup.walk = _ from hw] at hwalk; cases hwalk
  case h_3 hw => rw [← show s.lookup.walk = none from hw]

/-- The port that a teardown leaves. -/
def purgedPort (s : State) : SegmentPort :=
  if attemptUnderWay s then { s.port with inbound := [], queue := s.port.queue.take 1, surviving := true }
  else { s.port with inbound := [], queue := [], tx := .idle }

theorem purgePort_idle {s : State} (hc : ∀ c, context s c = none) (hn : noticeInHand s = false) :
    purgePort s = { s with port := purgedPort s } := by
  rw [purgePort, purgedPort]
  split
  · exact reportAll_idle (s := { s with
      port := { s.port with inbound := [], queue := s.port.queue.take 1, surviving := true } }) hc hn _ _
  · exact reportAll_idle (s := { s with
      port := { s.port with inbound := [], queue := [], tx := .idle } }) hc hn _ _

/-- The whole teardown, where no LOOKUP of the host runs and no notice is in hand. -/
theorem tearDown_eq {s : State} (hslot : s.lookup.hostSlot = none) (hwalk : hostWalking s = false)
    (hn : noticeInHand s = false) :
    tearDown s =
      { s with
        table := (closeAll s).table, join := (closeAll s).join
        change.entryCauses := (closeAll s).change.entryCauses
        admission.deferrals := [], lookup.walk := none, lookup.busWaiting := []
        port := purgedPort s } := by
  have hclosed := closeAll_eq s
  have hcontexts : ∀ c, context (closeAll s) c = none := fun c => context_closeAll c s
  rw [tearDown]
  generalize closeAll s = u at hclosed hcontexts ⊢
  have hlookup : u.lookup = s.lookup := by rw [hclosed]
  have hport : u.port = s.port := by rw [hclosed]
  have hhost : u.host = s.host := by rw [hclosed]
  have hpurged : purgeLookups { u with admission.deferrals := [] } =
      { u with admission.deferrals := [], lookup.walk := none, lookup.busWaiting := [] } := by
    refine purgeLookups_bus (s := { u with admission.deferrals := [] }) ?_ ?_
    · exact (congrArg LookupUnit.hostSlot hlookup).trans hslot
    · rw [← hwalk, hostWalking, hostWalking]
      simp only [hlookup]
  have hnotice : noticeInHand u = false := by
    rw [← hn, noticeInHand, noticeInHand, workInHand, workInHand, hhost]
  have hpurge : purgedPort u = purgedPort s := by
    rw [purgedPort, purgedPort, attemptUnderWay, attemptUnderWay, hport]
  simp only [hpurged]
  refine (purgePort_idle (s :=
    { u with admission.deferrals := [], lookup.walk := none, lookup.busWaiting := [] })
    hcontexts hnotice).trans ?_
  have hpurge' : purgedPort
      { u with admission.deferrals := [], lookup.walk := none, lookup.busWaiting := [] } =
        purgedPort s := hpurge
  rw [hpurge', hclosed]

/-- The transmitter is left as it was where an attempt is under way, and is IDLE otherwise. -/
theorem purgedPort_attempt {s t : State} (ht : t.port = purgedPort s) :
    attemptUnderWay t = attemptUnderWay s := by
  rw [purgedPort] at ht
  split at ht
  case isTrue h => rw [attemptUnderWay, ht, ← attemptUnderWay]
  case isFalse h => rw [attemptUnderWay, ht, Bool.eq_false_iff.2 h]

/-- What the teardown leaves is what R142 and R183 say. -/
theorem tearDown_tornDown {s t : State} (hj : ReservedOffered s)
    (ht : t.table = (closeAll s).table) (hjoin : t.join = (closeAll s).join)
    (hchange : t.change = { s.change with entryCauses := (closeAll s).change.entryCauses })
    (hadmission : t.admission = { s.admission with deferrals := [] })
    (hlookup : t.lookup = { s.lookup with walk := none, busWaiting := [] })
    (hport : t.port = purgedPort s) : TornDown s t := by
  have hcauses : t.change.entryCauses = (closeAll s).change.entryCauses := by rw [hchange]
  have hentry : ∀ i, entry t i = entry (closeAll s) i := fun i => by rw [entry, ht, entry]
  refine ⟨fun c => ?_, fun i hi => ?_, fun i hi => ?_, hadmission, by rw [hlookup], ?_, by rw [hlookup],
    ?_, fun h => ?_, fun h => ?_, ?_, ?_, by rw [hchange]⟩
  · rw [context, hjoin]
    exact context_closeAll c s
  · rw [hentry]
    simp only [hcauses]
    exact closeAll_releasedAt hj hi
  · rw [hentry]
    simp only [hcauses]
    exact closeAll_keptAt hi
  · intro r i l
    rw [hlookup]
    nofun
  · rw [hport, purgedPort]; split <;> rfl
  · rw [hport, purgedPort, if_pos h]; exact ⟨rfl, rfl⟩
  · rw [hport, purgedPort, if_neg h]; exact ⟨rfl, rfl⟩
  · rw [hport, purgedPort]; split <;> rfl
  · rw [hport, purgedPort]; split <;> rfl

/-! ### The commands -/

section Commands

variable {f : CommandFrame} {s : State}

theorem exec_disable (hs : Ready s) (hf : Framed 0x04 f) (hp : f.params = []) :
    exec (.disable f) s = .next (disable (accept f s)) :=
  congrArg Host.Outcome.next (takeCommand_taken hs hf (by simp [hp]) (by simp [hp]))

theorem exec_portRestart (hs : Ready s) (hf : Framed 0x17 f) (hp : f.params = []) :
    exec (.portRestart f) s =
      .next (finishTearDown (fun _ => []) (tearDown (accept f s))) :=
  congrArg Host.Outcome.next (takeCommand_taken hs hf (by simp [hp]) (by simp [hp]))

theorem disable_refused (h : s.phase.phase = .offline) :
    disable (accept f s) = completed f .phase [] s s := by
  rw [disable, accept_phase, if_pos h, finish_accept]

theorem waitFor_of_host_eq_accept {t : State} (w : Work) (h : t.host = (accept f s).host) :
    waitFor w t = inHand f w s t := by
  simp [waitFor, h, inHand, hostAfter]

/-- A teardown completes in its event, or waits for the attempt that survives it (R164). -/
theorem finishTearDown_eq {t : State} (data : State → List Byte) (h : t.host = (accept f s).host) :
    finishTearDown data t =
      { t with
        host := hostAfter
          (if attemptUnderWay t then .executing ⟨f.tag, f.code, f.params, .attemptEnd⟩
            else .done ⟨f.tag, .ok, data t⟩) s } := by
  rw [finishTearDown]
  split
  · rw [waitFor_of_host_eq_accept _ h]; rfl
  · rw [finish_of_host_eq_accept _ _ h]; rfl

/-- The state that DISABLE tears down: OFFLINE, with the clock and the settle timer stopped. -/
def disabled (s : State) : State :=
  stopClock (enterPhase .offline { s with phase.settle := none, phase.settleOwed := false })

theorem disable_eq (h : s.phase.phase ≠ .offline) :
    disable (accept f s) = finishTearDown phaseData (tearDown (disabled (accept f s))) := by
  rw [disable, accept_phase, if_neg h]
  rfl

end Commands

/-- What a teardown command leaves, by the state `u` that it tears down. -/
theorem finishTearDown_torn {f : CommandFrame} {s u : State} (data : State → List Byte)
    (hj : ReservedOffered u) (hslot : u.lookup.hostSlot = none) (hwalk : hostWalking u = false)
    (hhost : u.host = (accept f s).host) :
    ∃ t, finishTearDown data (tearDown u) = t ∧ TornDown u t ∧ t.phase = u.phase ∧ t.lease = u.lease
      ∧ t.change.partCauses = u.change.partCauses
      ∧ t.host = hostAfter
          (if attemptUnderWay u then .executing ⟨f.tag, f.code, f.params, .attemptEnd⟩
            else .done ⟨f.tag, .ok, data (tearDown u)⟩) s := by
  have hn : noticeInHand u = false := by rw [noticeInHand, workInHand, hhost]; rfl
  have htorn := tearDown_eq hslot hwalk hn
  have hkept : (tearDown u).host = (accept f s).host := by rw [htorn, ← hhost]
  have hsame : attemptUnderWay (tearDown u) = attemptUnderWay u := purgedPort_attempt (by rw [htorn])
  have hfinished := finishTearDown_eq data hkept
  rw [hsame] at hfinished
  have htable : (tearDown u).table = (closeAll u).table := by rw [htorn]
  have hjoin : (tearDown u).join = (closeAll u).join := by rw [htorn]
  have hchange : (tearDown u).change =
      { u.change with entryCauses := (closeAll u).change.entryCauses } := by rw [htorn]
  have hadmission : (tearDown u).admission = { u.admission with deferrals := [] } := by rw [htorn]
  have hlookup : (tearDown u).lookup = { u.lookup with walk := none, busWaiting := [] } := by
    rw [htorn]
  have hport : (tearDown u).port = purgedPort u := by rw [htorn]
  have hphase : (tearDown u).phase = u.phase := by rw [htorn]
  have hlease : (tearDown u).lease = u.lease := by rw [htorn]
  have hpart : (tearDown u).change.partCauses = u.change.partCauses := by rw [htorn]
  generalize tearDown u = v at *
  refine ⟨_, hfinished, ?_, hphase, hlease, hpart, rfl⟩
  exact tearDown_tornDown hj htable hjoin hchange hadmission hlookup hport

/-- Settles O21: the refusal in OFFLINE, and the teardown of each command. -/
theorem teardownCommands : Obligations.TeardownCommands := by
  intro f s hs _ hj he hp
  obtain ⟨_, _, hoffered, _, _, _⟩ := hj
  obtain ⟨_, _, hslot, hwalk⟩ := he.waits_for_nothing (workInHand_not_executing hs.2)
  refine ⟨fun hf h => ?refused, fun hf h => ?disable, fun hf => ?restart⟩
  case refused => rw [exec_disable hs hf hp, disable_refused h]
  case disable =>
    rw [exec_disable hs hf hp, disable_eq h]
    have hphase : phaseData (tearDown (disabled (accept f s))) = [0] := by
      rw [phaseData, tearDown_eq (s := disabled (accept f s)) hslot hwalk rfl]
      rfl
    obtain ⟨t, ht, htorn, hph, hlease, hpart, hhost⟩ :=
      finishTearDown_torn (u := disabled (accept f s)) (f := f) (s := s) phaseData hoffered hslot hwalk
        rfl
    rw [hphase] at hhost
    exact ⟨t, congrArg _ ht, htorn, hph, congrArg LeaseUnit.nextTick hlease, hpart, hhost⟩
  case restart =>
    rw [exec_portRestart hs hf hp]
    obtain ⟨t, ht, htorn, hph, hlease, hpart, hhost⟩ :=
      finishTearDown_torn (u := accept f s) (f := f) (s := s) (fun _ => []) hoffered hslot hwalk rfl
    exact ⟨t, congrArg _ ht, htorn, hph, hlease, hpart, hhost⟩

end Sys2Proof.Machine
end

section
/-! Reading the fields of ADD-STATIC, EDIT, REVOKE, CONFIRM and LOOKUP (spec/12.3): when a field is out of
range, and what is read otherwise. -/

namespace Sys2Proof.Machine

-- One lemma is elaborated after another, which keeps the check's memory low.
set_option Elab.async false

variable {p : List Byte} {k : Nat}

/-! ### One field -/

/-- Groups in bytes break no rule where each is at most 13 and none is given twice. -/
theorem groupsValid_bytes {l : List Byte} :
    groupsValid (l.map BitVec.toNat) = true ↔ (∀ b ∈ l, b.toNat ≤ 13) ∧ l.Nodup := by
  rw [groupsValid, Bool.and_eq_true, decide_eq_true_iff,
    List.nodup_map_iff fun a b h => BitVec.eq_of_toNat_eq h]
  simp

theorem charsValid_iff {l : List Byte} :
    charsValid l = true ↔ ∀ b ∈ l, 0x20 ≤ b.toNat ∧ b.toNat ≤ 0x7E := by
  simp [charsValid]

theorem readGroups_eq_some {g : List Nat} (h : readGroups p k = some g) :
    g = ((p.drop (k + 1)).take (byteAt p k).toNat).map BitVec.toNat := by
  simp only [readGroups, Option.ite_none_right_eq_some, Option.some.injEq] at h
  exact h.2.symm

theorem readGroups_eq_none_iff :
    readGroups p k = none ↔
      4 < (byteAt p k).toNat
        ∨ (∃ b ∈ (p.drop (k + 1)).take (byteAt p k).toNat, 13 < b.toNat)
        ∨ ¬ ((p.drop (k + 1)).take (byteAt p k).toNat).Nodup := by
  rw [readGroups]
  simp only [ite_eq_right_iff, reduceCtorEq, imp_false, Bool.and_eq_true, decide_eq_true_iff,
    groupsValid_bytes, not_and_or, not_forall, not_le, exists_prop]

theorem readLabel_eq_some {l : List Byte} (h : readLabel p k = some l) :
    l = (p.drop (k + 1)).take (byteAt p k).toNat := by
  simp only [readLabel, Option.ite_none_right_eq_some, Option.some.injEq] at h
  exact h.2.symm

theorem readLabel_eq_none_iff :
    readLabel p k = none ↔
      (byteAt p k).toNat = 0 ∨ 12 < (byteAt p k).toNat
        ∨ ∃ b ∈ (p.drop (k + 1)).take (byteAt p k).toNat, b.toNat < 0x20 ∨ 0x7E < b.toNat := by
  rw [readLabel]
  simp only [ite_eq_right_iff, reduceCtorEq, imp_false, charsValid_iff, not_and_or, not_forall, not_le,
    exists_prop, Nat.lt_one_iff]

theorem readIndex_eq_none_iff : readIndex p k = none ↔ 159 < (byteAt p k).toNat := by
  rw [readIndex]
  split
  case isTrue h => exact iff_of_false nofun (by omega)
  case isFalse h => exact iff_of_true rfl (by omega)

theorem readIndex_eq_some {i : Index} (h : readIndex p k = some i) : i.val = (byteAt p k).toNat := by
  rw [readIndex] at h
  split at h
  · cases h; rfl
  · cases h

theorem readClass_eq_none_iff : readClass p k = none ↔ 7 < (byteAt p k).toNat := by
  rw [readClass]
  split
  case isTrue h => exact iff_of_false nofun (by omega)
  case isFalse h => exact iff_of_true rfl (by omega)

theorem readClass_eq_some {c : Cls} (h : readClass p k = some c) : c.val = (byteAt p k).toNat := by
  rw [readClass] at h
  split at h
  · cases h; rfl
  · cases h

theorem readWindow_eq_none_iff :
    readWindow p k = none ↔ (byteAt p k).toNat = 0 ∨ 64 < (byteAt p k).toNat := by
  simp only [readWindow, ite_eq_right_iff, reduceCtorEq, imp_false]
  omega

theorem readWindow_eq_some {w : Nat} (h : readWindow p k = some w) : w = (byteAt p k).toNat := by
  simp only [readWindow, Option.ite_none_right_eq_some, Option.some.injEq] at h
  exact h.2.symm

theorem readLease_eq_none_iff :
    readLease p k = none ↔ natAt p k 2 = 0 ∨ 4095 < natAt p k 2 := by
  simp only [readLease, ite_eq_right_iff, reduceCtorEq, imp_false]
  omega

theorem readLease_eq_some {n : Nat} (h : readLease p k = some n) : n = natAt p k 2 := by
  simp only [readLease, Option.ite_none_right_eq_some, Option.some.injEq] at h
  exact h.2.symm

theorem readWhen_eq_none_iff {α : Type} {present : Bool} {field : Option α} :
    readWhen present field = none ↔ present = true ∧ field = none := by
  cases present <;> simp [readWhen]

/-- A field read is absent where it is not marked present, and is what its bytes spell where it is. -/
theorem readWhen_eq_ite {α β : Type} {present : Bool} {field : Option α} {r : Option α} {g : α → β}
    {v : β} (h : readWhen present field = some r) (hv : ∀ a, field = some a → g a = v) :
    r.map g = if present then some v else none := by
  obtain ⟨hp, hr⟩ | ⟨a, hp, ha, hr⟩ := readWhen_eq_some h
  · rw [hr, hp]; rfl
  · rw [hr, hp, if_pos rfl, Option.map_some, hv a ha]

/-- A field that is read as it stands. -/
theorem readWhen_eq_ite_id {α : Type} {present : Bool} {field : Option α} {r : Option α} {v : α}
    (h : readWhen present field = some r) (hv : ∀ a, field = some a → a = v) :
    r = if present then some v else none := by
  rw [← readWhen_eq_ite (g := id) h hv, Option.map_id_fun, id]

/-! ### ADD-STATIC -/

theorem readStatic_eq_some_iff {x : StaticFields} :
    readStatic p = some x ↔
      (1 ≤ (byteAt p 0).toNat ∧ (byteAt p 0).toNat ≤ 239) ∧ (byteAt p 1).toNat < 4
        ∧ ∃ cls, readClass p 10 = some cls ∧ ∃ window, readWindow p 11 = some window
        ∧ ∃ groups, readGroups p 12 = some groups
        ∧ ∃ label, readWhen ((byteAt p 1).getLsbD 1) (readLabel p 17) = some label
        ∧ ⟨(byteAt p 0).toNat, if (byteAt p 1).getLsbD 0 then some (identityAt p 2) else none,
            ⟨cls, window, groups⟩, label⟩ = x := by
  simp only [readStatic, Option.bind_eq_bind, Option.bind_eq_some_iff, guard_eq_some, exists_const,
    Option.some.injEq]
  rfl

/-- ADD-STATIC is out of range by its address, its flags, or one of its fields. -/
theorem readStatic_eq_none_iff :
    readStatic p = none ↔
      (byteAt p 0).toNat = 0 ∨ 239 < (byteAt p 0).toNat ∨ 3 < (byteAt p 1).toNat
        ∨ 7 < (byteAt p 10).toNat ∨ (byteAt p 11).toNat = 0 ∨ 64 < (byteAt p 11).toNat
        ∨ readGroups p 12 = none ∨ ((byteAt p 1).getLsbD 1 = true ∧ readLabel p 17 = none) := by
  have hread : readStatic p ≠ none ↔
      (1 ≤ (byteAt p 0).toNat ∧ (byteAt p 0).toNat ≤ 239) ∧ (byteAt p 1).toNat < 4
        ∧ readClass p 10 ≠ none ∧ readWindow p 11 ≠ none ∧ readGroups p 12 ≠ none
        ∧ readWhen ((byteAt p 1).getLsbD 1) (readLabel p 17) ≠ none := by
    simp only [Option.ne_none_iff_exists', readStatic_eq_some_iff]
    constructor
    · rintro ⟨_, ha, hf, cls, hc, w, hw, g, hg, l, hl, _⟩
      exact ⟨ha, hf, ⟨cls, hc⟩, ⟨w, hw⟩, ⟨g, hg⟩, ⟨l, hl⟩⟩
    · rintro ⟨ha, hf, ⟨cls, hc⟩, ⟨w, hw⟩, ⟨g, hg⟩, ⟨l, hl⟩⟩
      exact ⟨_, ha, hf, cls, hc, w, hw, g, hg, l, hl, rfl⟩
  rw [← not_iff_not, ← ne_eq, hread]
  simp only [ne_eq, readClass_eq_none_iff, readWindow_eq_none_iff, readWhen_eq_none_iff, not_or, not_lt,
    Nat.lt_succ_iff, Nat.one_le_iff_ne_zero, and_assoc]

/-- The fields of ADD-STATIC stand for its bytes. -/
theorem readStatic_bytes {x : StaticFields} (h : readStatic p = some x) :
    x.address = (byteAt p 0).toNat ∧ x.terms.cls.val = (byteAt p 10).toNat
      ∧ x.terms.window = (byteAt p 11).toNat
      ∧ x.terms.groups = ((p.drop 13).take (byteAt p 12).toNat).map BitVec.toNat
      ∧ x.identity = (if (byteAt p 1).getLsbD 0 then some (identityAt p 2) else none)
      ∧ x.label = (if (byteAt p 1).getLsbD 1 then some ((p.drop 18).take (byteAt p 17).toNat)
          else none) := by
  obtain ⟨_, _, cls, hc, w, hw, g, hg, l, hl, rfl⟩ := readStatic_eq_some_iff.1 h
  exact ⟨rfl, readClass_eq_some hc, readWindow_eq_some hw, readGroups_eq_some hg, rfl,
    readWhen_eq_ite_id hl fun _ => readLabel_eq_some⟩

/-! ### EDIT -/

theorem readEdit_eq_some_iff {x : EditFields} :
    readEdit p = some x ↔
      ∃ index, readIndex p 0 = some index ∧ (byteAt p 3).toNat < 128
        ∧ ¬ ((byteAt p 3).getLsbD 4 = true ∧ (byteAt p 3).getLsbD 5 = true)
        ∧ ∃ cls, readWhen ((byteAt p 3).getLsbD 1) (readClass p 4) = some cls
        ∧ ∃ window, readWhen ((byteAt p 3).getLsbD 2) (readWindow p 5) = some window
        ∧ ∃ groups, readWhen ((byteAt p 3).getLsbD 3) (readGroups p 6) = some groups
        ∧ ∃ label, readWhen ((byteAt p 3).getLsbD 4) (readLabel p 11) = some label
        ∧ ∃ lease, readWhen ((byteAt p 3).getLsbD 6) (readLease p 24) = some lease
        ∧ ⟨index, word16At p 1, (byteAt p 3).getLsbD 0, cls, window, groups, label,
            (byteAt p 3).getLsbD 5, lease⟩ = x := by
  simp only [readEdit, Option.bind_eq_bind, Option.bind_eq_some_iff, guard_eq_some, exists_const,
    Option.some.injEq]

/-- EDIT is out of range by its index, its flags, or a setting that is marked present. -/
theorem readEdit_eq_none_iff :
    readEdit p = none ↔
      159 < (byteAt p 0).toNat ∨ 127 < (byteAt p 3).toNat
        ∨ ((byteAt p 3).getLsbD 4 = true ∧ (byteAt p 3).getLsbD 5 = true)
        ∨ ((byteAt p 3).getLsbD 1 = true ∧ 7 < (byteAt p 4).toNat)
        ∨ ((byteAt p 3).getLsbD 2 = true ∧ ((byteAt p 5).toNat = 0 ∨ 64 < (byteAt p 5).toNat))
        ∨ ((byteAt p 3).getLsbD 3 = true ∧ readGroups p 6 = none)
        ∨ ((byteAt p 3).getLsbD 4 = true ∧ readLabel p 11 = none)
        ∨ ((byteAt p 3).getLsbD 6 = true ∧ (natAt p 24 2 = 0 ∨ 4095 < natAt p 24 2)) := by
  have hread : readEdit p ≠ none ↔
      readIndex p 0 ≠ none ∧ (byteAt p 3).toNat < 128
        ∧ ¬ ((byteAt p 3).getLsbD 4 = true ∧ (byteAt p 3).getLsbD 5 = true)
        ∧ readWhen ((byteAt p 3).getLsbD 1) (readClass p 4) ≠ none
        ∧ readWhen ((byteAt p 3).getLsbD 2) (readWindow p 5) ≠ none
        ∧ readWhen ((byteAt p 3).getLsbD 3) (readGroups p 6) ≠ none
        ∧ readWhen ((byteAt p 3).getLsbD 4) (readLabel p 11) ≠ none
        ∧ readWhen ((byteAt p 3).getLsbD 6) (readLease p 24) ≠ none := by
    simp only [Option.ne_none_iff_exists', readEdit_eq_some_iff]
    constructor
    · rintro ⟨_, i, hi, hf, hb, c, hc, w, hw, g, hg, l, hl, n, hn, _⟩
      exact ⟨⟨i, hi⟩, hf, hb, ⟨c, hc⟩, ⟨w, hw⟩, ⟨g, hg⟩, ⟨l, hl⟩, ⟨n, hn⟩⟩
    · rintro ⟨⟨i, hi⟩, hf, hb, ⟨c, hc⟩, ⟨w, hw⟩, ⟨g, hg⟩, ⟨l, hl⟩, ⟨n, hn⟩⟩
      exact ⟨_, i, hi, hf, hb, c, hc, w, hw, g, hg, l, hl, n, hn, rfl⟩
  rw [← not_iff_not, ← ne_eq, hread]
  simp only [ne_eq, readIndex_eq_none_iff, readWhen_eq_none_iff, readClass_eq_none_iff,
    readWindow_eq_none_iff, readLease_eq_none_iff, not_or, not_lt, Nat.lt_succ_iff]

/-- The fields of EDIT stand for its bytes. -/
theorem readEdit_bytes {x : EditFields} (h : readEdit p = some x) :
    x.index.val = (byteAt p 0).toNat ∧ x.expected = word16At p 1
      ∧ x.notify = (byteAt p 3).getLsbD 0
      ∧ x.cls.map Fin.val = (if (byteAt p 3).getLsbD 1 then some (byteAt p 4).toNat else none)
      ∧ x.window = (if (byteAt p 3).getLsbD 2 then some (byteAt p 5).toNat else none)
      ∧ x.groups = (if (byteAt p 3).getLsbD 3
          then some (((p.drop 7).take (byteAt p 6).toNat).map BitVec.toNat) else none)
      ∧ x.label = (if (byteAt p 3).getLsbD 4 then some ((p.drop 12).take (byteAt p 11).toNat)
          else none)
      ∧ x.clearLabel = (byteAt p 3).getLsbD 5
      ∧ x.lease = (if (byteAt p 3).getLsbD 6 then some (natAt p 24 2) else none) := by
  obtain ⟨i, hi, _, _, c, hc, w, hw, g, hg, l, hl, n, hn, rfl⟩ := readEdit_eq_some_iff.1 h
  exact ⟨readIndex_eq_some hi, rfl, rfl, readWhen_eq_ite hc fun _ => readClass_eq_some,
    readWhen_eq_ite_id hw fun _ => readWindow_eq_some,
    readWhen_eq_ite_id hg fun _ => readGroups_eq_some,
    readWhen_eq_ite_id hl fun _ => readLabel_eq_some, rfl,
    readWhen_eq_ite_id hn fun _ => readLease_eq_some⟩

/-! ### REVOKE and CONFIRM -/

theorem readEnd_eq_some_iff {x : EndFields} :
    readEnd p = some x ↔
      ∃ index, readIndex p 0 = some index ∧ ∃ second, readOption p 3 = some second
        ∧ ∃ notify, readOption p 4 = some notify ∧ ⟨index, word16At p 1, second, notify⟩ = x := by
  simp only [readEnd, Option.bind_eq_bind, Option.bind_eq_some_iff, Option.some.injEq]

theorem readEnd_eq_none_iff :
    readEnd p = none ↔
      159 < (byteAt p 0).toNat ∨ 1 < (byteAt p 3).toNat ∨ 1 < (byteAt p 4).toNat := by
  have hread : readEnd p ≠ none ↔
      readIndex p 0 ≠ none ∧ readOption p 3 ≠ none ∧ readOption p 4 ≠ none := by
    simp only [Option.ne_none_iff_exists', readEnd_eq_some_iff]
    constructor
    · rintro ⟨_, i, hi, a, ha, b, hb, _⟩
      exact ⟨⟨i, hi⟩, ⟨a, ha⟩, ⟨b, hb⟩⟩
    · rintro ⟨⟨i, hi⟩, ⟨a, ha⟩, ⟨b, hb⟩⟩
      exact ⟨_, i, hi, a, ha, b, hb, rfl⟩
  rw [← not_iff_not, ← ne_eq, hread]
  simp only [ne_eq, readIndex_eq_none_iff, readOption_eq_none_iff, not_or]

theorem readEnd_bytes {x : EndFields} (h : readEnd p = some x) :
    x.index.val = (byteAt p 0).toNat ∧ x.expected = word16At p 1
      ∧ (byteAt p 3 = if x.second then 1 else 0) ∧ (byteAt p 4 = if x.notify then 1 else 0) := by
  obtain ⟨i, hi, a, ha, b, hb, rfl⟩ := readEnd_eq_some_iff.1 h
  exact ⟨readIndex_eq_some hi, rfl, readOption_eq_some_iff.1 ha, readOption_eq_some_iff.1 hb⟩

/-- An option read is set by the byte 1, and clear by the byte 0. -/
theorem option_iff {b : Byte} {v : Bool} (h : b = if v then 1 else 0) :
    (v = true ↔ b = 1) ∧ (v = false ↔ b = 0) := by
  subst h
  cases v <;> decide

/-! ### LOOKUP -/

theorem groupByteOk_iff {g : Nat} (hg : g < 256) :
    groupByteOk g = true ↔ ¬ (14 ≤ g ∧ g ≤ 254) := by
  rw [groupByteOk, Bool.or_eq_true, decide_eq_true_iff, beq_iff_eq]
  omega

theorem readLookup_eq_some_iff {q : LookupRequest} :
    readLookup p = some q ↔
      groupByteOk (byteAt p 16).toNat = true
        ∧ ∃ cursor, readIndex p 17 = some cursor ∧ ∃ occupied, readOption p 18 = some occupied
        ∧ ∃ exclude, readOption p 19 = some exclude
        ∧ ⟨identityAt p 0, identityAt p 8, (byteAt p 16).toNat, cursor, !occupied, exclude⟩ = q := by
  simp only [readLookup, Option.bind_eq_bind, Option.bind_eq_some_iff, guard_eq_some, exists_const,
    Option.some.injEq]

theorem readLookup_eq_none_iff :
    readLookup p = none ↔
      (14 ≤ (byteAt p 16).toNat ∧ (byteAt p 16).toNat ≤ 254) ∨ 159 < (byteAt p 17).toNat
        ∨ 1 < (byteAt p 18).toNat ∨ 1 < (byteAt p 19).toNat := by
  have hread : readLookup p ≠ none ↔
      groupByteOk (byteAt p 16).toNat = true ∧ readIndex p 17 ≠ none ∧ readOption p 18 ≠ none
        ∧ readOption p 19 ≠ none := by
    simp only [Option.ne_none_iff_exists', readLookup_eq_some_iff]
    constructor
    · rintro ⟨_, hg, i, hi, a, ha, b, hb, _⟩
      exact ⟨hg, ⟨i, hi⟩, ⟨a, ha⟩, ⟨b, hb⟩⟩
    · rintro ⟨hg, ⟨i, hi⟩, ⟨a, ha⟩, ⟨b, hb⟩⟩
      exact ⟨_, hg, i, hi, a, ha, b, hb, rfl⟩
  rw [← not_iff_not, ← ne_eq, hread, groupByteOk_iff (BitVec.isLt _)]
  simp only [ne_eq, readIndex_eq_none_iff, readOption_eq_none_iff, not_or]

theorem readLookup_bytes {q : LookupRequest} (h : readLookup p = some q) :
    q.pattern = identityAt p 0 ∧ q.mask = identityAt p 8 ∧ q.group = (byteAt p 16).toNat
      ∧ q.cursor.val = (byteAt p 17).toNat ∧ (q.liveOnly = true ↔ (byteAt p 18).toNat = 0)
      ∧ (q.excludeDisputed = true ↔ (byteAt p 19).toNat = 1) := by
  obtain ⟨_, i, hi, a, ha, b, hb, rfl⟩ := readLookup_eq_some_iff.1 h
  rw [readOption_eq_some_iff] at ha hb
  refine ⟨rfl, rfl, rfl, readIndex_eq_some hi, ?_, ?_⟩
  · rw [ha]
    show (!a) = true ↔ (if a = true then (1 : Byte) else 0).toNat = 0
    cases a <;> decide
  · rw [hb]
    show b = true ↔ (if b = true then (1 : Byte) else 0).toNat = 1
    cases b <;> decide

end Sys2Proof.Machine
end

section
/-! Allocation with reclaim (spec/01.5), ADD-STATIC (spec/11.4) and CONFIRM KEEP (spec/11.6). -/

namespace Sys2Proof.Machine

-- One lemma is elaborated after another, which keeps the check's memory low.
set_option Elab.async false

/-! ### Change requests on an entry -/

section Changes

variable {i : Index} {e new : Entry} {c d : CauseSet} {s : State}

/-- A request that hands no cause leaves the cause sets as they are. -/
theorem withCauses_zero (i : Index) (s : State) : withCauses i 0 s = s := by
  simp [withCauses, Vector.set_getElem_self]

/-- Freeing an entry and then changing it is one change, with both causes. -/
theorem withEntry_released (i : Index) (e : Entry) (c : CauseSet) (s : State) :
    withCauses i c (withEntry i e (released i s)) =
      withCauses i (causeReleased ||| c) (withEntry i e s) := by
  simp [withCauses, withEntry, released, BitVec.or_assoc]

/-- A change out of a state into another one (R6, R8). -/
theorem changeEntry_state (c : CauseSet) (h : (entry s i).state ≠ new.state) :
    changeEntry i new c s =
      withCauses i c (withEntry i { new with generation := (entry s i).generation + 1 } s) := by
  rw [changeEntry_eq, nextGeneration_state h]

/-- A change of a tracked field (R6, R8). -/
theorem changeEntry_tracked (c : CauseSet) (h : (entry s i).tracked ≠ new.tracked) :
    changeEntry i new c s =
      withCauses i c (withEntry i { new with generation := (entry s i).generation + 1 } s) := by
  rw [changeEntry_eq, nextGeneration_changed h]

/-- A change that leaves the tracked fields as they were (R6, R8). -/
theorem changeEntry_untracked (c : CauseSet) (h : (entry s i).tracked = new.tracked) :
    changeEntry i new c s =
      withCauses i c (withEntry i { new with generation := (entry s i).generation } s) := by
  rw [changeEntry_eq, nextGeneration, if_pos h]

theorem entry_withCauses (i j : Index) (c : CauseSet) (s : State) :
    entry (withCauses i c s) j = entry s j := rfl

theorem entry_changed_same (i : Index) (e : Entry) (c : CauseSet) (s : State) :
    entry (withCauses i c (withEntry i e s)) i = e := by
  rw [entry_withCauses, entry_withEntry, if_pos rfl]

end Changes

/-! ### Allocation (R17, R18) -/

section Allocation

variable {i : Index} {s : State}

theorem lowestFree_none : lowestFree s = none ↔ ∀ j, (entry s j).state ≠ .free := by
  simp [lowestFree]

/-- The HELD entry that reclaim chooses is that of R18. -/
theorem reclaimable_eq (h : Reclaimed s i) : reclaimable s = some i := by
  refine find_lowest ?_
  refine ⟨?_, fun j hj hp => ?_⟩
  · obtain ⟨⟨hheld, hleast⟩, _⟩ := h
    simp only [Bool.and_eq_true, beq_iff_eq, List.all_eq_true, Bool.or_eq_true, bne_iff_ne,
      decide_eq_true_iff]
    exact ⟨hheld, fun k _ => (em ((entry s k).state = .held)).symm.imp_right (hleast k)⟩
  · simp only [Bool.and_eq_true, beq_iff_eq, List.all_eq_true, Bool.or_eq_true, bne_iff_ne,
      decide_eq_true_iff] at hp
    obtain ⟨hheld, hall⟩ := hp
    exact h.2 j hj ⟨hheld, fun k hk => (hall k (List.mem_finRange k)).resolve_left (not_not.2 hk)⟩

theorem reclaimable_none (h : ∀ j, (entry s j).state ≠ .held) : reclaimable s = none := by
  simp [reclaimable, h]

theorem allocate_lowest (h : Lowest (fun j => (entry s j).state = .free) i) :
    allocate s = some (i, s) := by
  simp only [allocate, lowestFree_eq.2 h]

theorem Reclaimed.held (h : Reclaimed s i) : (entry s i).state = .held := h.1.1

theorem allocate_reclaimed (hn : ∀ j, (entry s j).state ≠ .free) (h : Reclaimed s i) :
    allocate s = some (i, released i s) := by
  have hfree : freeEntry i s = released i s := freeEntry_released (hn i)
  simp only [allocate, lowestFree_none.2 hn, reclaimable_eq h, Option.map_some, hfree]

theorem allocate_fails (hn : ∀ j, (entry s j).state ≠ .free) (hh : ∀ j, (entry s j).state ≠ .held) :
    allocate s = none := by
  simp only [allocate, lowestFree_none.2 hn, reclaimable_none hh, Option.map_none]

theorem entry_released (i j : Index) (s : State) :
    entry (released i s) j =
      if j = i then Entry.freeAt ((entry s i).generation + 1) else entry s j := by
  rw [released, entry_withCauses, entry_withEntry]

/-- The entry allocated becomes occupied: its generation advances by 1 out of FREE, and by 2 out of HELD,
with the causes of both changes. -/
theorem changeEntry_lowest {new : Entry} (c : CauseSet)
    (h : Lowest (fun j => (entry s j).state = .free) i) (hnew : new.state ≠ .free) :
    changeEntry i new c s =
      withCauses i c (withEntry i { new with generation := (entry s i).generation + 1 } s) :=
  changeEntry_state c (by rw [show (entry s i).state = .free from h.1]; exact hnew.symm)

theorem changeEntry_released {new : Entry} (c : CauseSet) (hnew : new.state ≠ .free) :
    changeEntry i new c (released i s) =
      withCauses i (causeReleased ||| c)
        (withEntry i { new with generation := (entry s i).generation + 2 } s) := by
  have hfree : entry (released i s) i = Entry.freeAt ((entry s i).generation + 1) := by
    rw [entry_released, if_pos rfl]
  rw [changeEntry_state c (by rw [hfree]; exact hnew.symm), withEntry_released, hfree]
  have htwo : (Entry.freeAt ((entry s i).generation + 1)).generation + 1 =
      (entry s i).generation + 2 := by
    show (entry s i).generation + 1 + 1 = _
    rw [BitVec.add_assoc]
    rfl
  rw [htwo]

end Allocation

/-! ### ADD-STATIC (R174) -/

section AddStatic

variable {f : CommandFrame} {s : State} {p : List Byte} {x : StaticFields} {i : Index}

theorem exec_addStatic (hs : Ready s) (hf : Framed 0x0A f) (hl : f.params.length = 30) :
    exec (.addStatic f) s = .next (addStatic f.params (accept f s)) :=
  congrArg Host.Outcome.next (takeCommand_taken hs hf (by simp [hl]) (by omega))

theorem addStatic_range (h : readStatic p = none) :
    addStatic p (accept f s) = completed f .range [] s s := by
  simp only [addStatic, h, finish_accept]

theorem entryAt_isSome {a : Nat} (ho : (entry s i).occupied = true)
    (ha : (entry s i).address = some a) : (entryAt s a).isSome = true := by
  rw [entryAt, List.find?_isSome]
  exact ⟨i, List.mem_finRange i, by simp [ho, ha]⟩

theorem entryOf_isSome {y : Identity} (ho : (entry s i).occupied = true)
    (hy : (entry s i).identity = some y) : (entryOf s y).isSome = true := by
  rw [entryOf, List.find?_isSome]
  exact ⟨i, List.mem_finRange i, by simp [ho, hy]⟩

theorem addStatic_address (h : readStatic p = some x) (ho : (entry s i).occupied = true)
    (ha : (entry s i).address = some x.address) :
    addStatic p (accept f s) = completed f .addressInUse [] s s := by
  have hheld : (entryAt (accept f s) x.address).isSome = true := entryAt_isSome (s := s) ho ha
  simp only [addStatic, h, hheld, if_true, finish_accept]

theorem addStatic_identity {y : Identity} (h : readStatic p = some x) (hu : AddressUnheld s x.address)
    (hx : x.identity = some y) (ho : (entry s i).occupied = true)
    (hy : (entry s i).identity = some y) :
    addStatic p (accept f s) = completed f .identityInUse [] s s := by
  have hat : entryAt (accept f s) x.address = none := entryAt_unheld (s := s) hu
  have hof : (entryOf (accept f s) y).isSome = true := entryOf_isSome (s := s) ho hy
  simp [addStatic, h, hat, hx, hof, finish_accept]

/-- An address and an identity that no entry holds leave ADD-STATIC to the allocation. -/
theorem addStatic_allocates (h : readStatic p = some x) (hu : AddressUnheld s x.address)
    (hv : ∀ y, x.identity = some y → IdentityUnheld s y) :
    addStatic p (accept f s) =
      match allocate (accept f s) with
      | none => finish .tableFull [] (setPart partTableFull (accept f s))
      | some (i, u) =>
        finish .ok
          ([oneByte i.val]
            ++ word16Bytes (entry (changeEntry i (staticEntry x) causeCreated u) i).generation)
          (changeEntry i (staticEntry x) causeCreated u) := by
  have hat : entryAt (accept f s) x.address = none := entryAt_unheld (s := s) hu
  have hof : x.identity.any (fun y => (entryOf (accept f s) y).isSome) = false := by
    cases hx : x.identity with
    | none => rfl
    | some y =>
      have hnone : entryOf (accept f s) y = none := entryOf_unheld (s := s) (hv y hx)
      rw [Option.any_some, hnone]
      rfl
  simp only [addStatic, h, hat, hof]
  rfl

theorem addStatic_full (h : readStatic p = some x) (hu : AddressUnheld s x.address)
    (hv : ∀ y, x.identity = some y → IdentityUnheld s y) (hn : ∀ j, (entry s j).state ≠ .free)
    (hh : ∀ j, (entry s j).state ≠ .held) :
    addStatic p (accept f s) =
      completed f .tableFull [] s
        { s with change.partCauses := s.change.partCauses ||| partTableFull } := by
  have hall : allocate (accept f s) = none := allocate_fails (s := accept f s) hn hh
  rw [addStatic_allocates h hu hv, hall]
  rfl

theorem addStatic_lowest (h : readStatic p = some x) (hu : AddressUnheld s x.address)
    (hv : ∀ y, x.identity = some y → IdentityUnheld s y)
    (hi : Lowest (fun j => (entry s j).state = .free) i) :
    addStatic p (accept f s) =
      completed f .ok ([oneByte i.val] ++ word16Bytes ((entry s i).generation + 1)) s
        (withCauses i causeCreated
          (withEntry i { staticEntry x with generation := (entry s i).generation + 1 } s)) := by
  have hall : allocate (accept f s) = some (i, accept f s) := allocate_lowest (s := accept f s) hi
  have hnew : changeEntry i (staticEntry x) causeCreated (accept f s) =
      withCauses i causeCreated (withEntry i
        { staticEntry x with generation := (entry s i).generation + 1 } (accept f s)) :=
    changeEntry_lowest (s := accept f s) _ hi nofun
  rw [addStatic_allocates h hu hv, hall]
  simp only [hnew, entry_changed_same]
  exact finish_of_host_eq_accept _ _ rfl

theorem addStatic_reclaims (h : readStatic p = some x) (hu : AddressUnheld s x.address)
    (hv : ∀ y, x.identity = some y → IdentityUnheld s y) (hn : ∀ j, (entry s j).state ≠ .free)
    (hi : Reclaimed s i) :
    addStatic p (accept f s) =
      completed f .ok ([oneByte i.val] ++ word16Bytes ((entry s i).generation + 2)) s
        (withCauses i (causeReleased ||| causeCreated)
          (withEntry i { staticEntry x with generation := (entry s i).generation + 2 } s)) := by
  have hall : allocate (accept f s) = some (i, released i (accept f s)) :=
    allocate_reclaimed (s := accept f s) hn hi
  have hnew : changeEntry i (staticEntry x) causeCreated (released i (accept f s)) =
      withCauses i (causeReleased ||| causeCreated) (withEntry i
        { staticEntry x with generation := (entry s i).generation + 2 } (accept f s)) :=
    changeEntry_released (s := accept f s) _ nofun
  rw [addStatic_allocates h hu hv, hall]
  simp only [hnew, entry_changed_same]
  exact finish_of_host_eq_accept _ _ rfl

end AddStatic

/-! ### CONFIRM KEEP (R178) -/

section ConfirmKeep

variable {f : CommandFrame} {s : State} {p : List Byte} {x : EndFields}

theorem exec_confirmKeep (hs : Ready s) (hf : Framed 0x0D f) (hl : f.params.length = 5) :
    exec (.confirmKeep f) s = .next (confirmKeep f.params (accept f s)) :=
  congrArg Host.Outcome.next (takeCommand_taken hs hf (by simp [hl]) (by omega))

theorem confirmKeep_range (h : readEnd p = none) :
    confirmKeep p (accept f s) = completed f .range [] s s := by
  simp only [confirmKeep, h, finish_accept]

theorem confirmKeep_stale (h : readEnd p = some x) (hk : x.second = false)
    (hg : (entry s x.index).generation ≠ x.expected) :
    confirmKeep p (accept f s) = completed f .stale [] s s := by
  have hgen : (entry (accept f s) x.index).generation ≠ x.expected := hg
  simp only [confirmKeep, h, hk, Bool.false_eq_true, if_false, if_pos hgen, finish_accept]

theorem confirmKeep_notLive (h : readEnd p = some x) (hk : x.second = false)
    (hg : (entry s x.index).generation = x.expected)
    (hc : ¬ ((entry s x.index).live = true ∧ (entry s x.index).dispute.present = true)) :
    confirmKeep p (accept f s) = completed f .notLive [] s s := by
  have hgen : ¬ (entry (accept f s) x.index).generation ≠ x.expected := not_not.2 hg
  have hconf : ¬ confirmable (entry (accept f s) x.index) = true := fun hk => hc (confirmable_iff.1 hk)
  simp only [confirmKeep, h, hk, Bool.false_eq_true, if_false, if_neg hgen, if_pos hconf,
    finish_accept]

/-- Removing a dispute that is present changes a tracked field. -/
theorem tracked_undisputed {e : Entry} (h : e.dispute.present = true) :
    e.tracked ≠ { e with dispute := Dispute.empty }.tracked := by
  intro heq
  have hd : e.dispute = Dispute.empty := congrArg Entry.dispute heq
  rw [hd] at h
  cases h

theorem confirmKeep_removes (h : readEnd p = some x) (hk : x.second = false)
    (hg : (entry s x.index).generation = x.expected) (hlive : (entry s x.index).live = true)
    (hd : (entry s x.index).dispute.present = true) :
    confirmKeep p (accept f s) =
      completed f .ok
        ([oneByte x.index.val] ++ word16Bytes ((entry s x.index).generation + 1) ++ [0]) s
        (withEntry x.index
          { entry s x.index with
            generation := (entry s x.index).generation + 1, dispute := ⟨false, false⟩ } s) := by
  have hgen : ¬ (entry (accept f s) x.index).generation ≠ x.expected := not_not.2 hg
  have hconf : ¬ ¬ confirmable (entry (accept f s) x.index) = true :=
    not_not.2 (confirmable_iff.2 ⟨hlive, hd⟩)
  have hnew : changeEntry x.index { entry (accept f s) x.index with dispute := Dispute.empty } 0
      (accept f s) = withEntry x.index
        { entry s x.index with
          generation := (entry s x.index).generation + 1, dispute := ⟨false, false⟩ } (accept f s) :=
    (changeEntry_tracked (s := accept f s) 0 (tracked_undisputed hd)).trans (withCauses_zero _ _)
  simp only [confirmKeep, h, hk, Bool.false_eq_true, if_false, if_neg hgen, if_neg hconf, hnew,
    entry_withEntry, if_true]
  exact finish_of_host_eq_accept _ _ rfl

end ConfirmKeep

/-! ### The obligations -/

/-- Settles O27: the allocation finds a FREE entry, and the change out of FREE advances the generation. -/
theorem addStaticTakesLowestFree : Obligations.AddStaticTakesLowestFree := by
  intro f s x i hs hf hl h hu hv hi
  rw [exec_addStatic hs hf hl, addStatic_lowest h hu hv hi]
  rfl

/-- Settles O28: the fields as bytes, then each check in its order, and the allocation without a FREE
entry. -/
theorem addStaticChecksAndReclaims : Obligations.AddStaticChecksAndReclaims := by
  intro f s hs hf hl
  rw [exec_addStatic hs hf hl]
  refine ⟨readStatic_eq_none_iff, readGroups_eq_none_iff, readLabel_eq_none_iff, fun h => ?_,
    fun x h => ⟨readStatic_bytes h, fun i ho ha => ?_, fun i y hu hx ho hy => ?_,
      fun hu hv hn => ⟨fun hh => ?_, fun i hi => ?_⟩⟩⟩
  · rw [addStatic_range h]
  · rw [addStatic_address h ho ha]
  · rw [addStatic_identity h hu hx ho hy]
  · rw [addStatic_full h hu hv hn hh]
  · rw [addStatic_reclaims h hu hv hn hi]
    rfl

/-- Settles O31: CONFIRM KEEP's checks in their order, and the removal. -/
theorem confirmKeepRemovesDispute : Obligations.ConfirmKeepRemovesDispute := by
  intro f s hs hf hl
  rw [exec_confirmKeep hs hf hl]
  refine ⟨readEnd_eq_none_iff, fun h => ?_, fun x h => ?_, fun x e h hk he => ?_⟩
  · rw [confirmKeep_range h]
  · obtain ⟨hi, hg, h3, h4⟩ := readEnd_bytes h
    exact ⟨hi, hg, (option_iff h3).2, (option_iff h4).1⟩
  · subst he
    refine ⟨fun hg => ?_, fun hg hc => ?_, fun hg hlive hd => ?_⟩
    · rw [confirmKeep_stale h hk hg]
    · rw [confirmKeep_notLive h hk hg hc]
    · rw [confirmKeep_removes h hk hg hlive hd]

end Sys2Proof.Machine
end

section
/-! EDIT, REVOKE and CONFIRM EVICT, without a notice and with one (spec/11.2, spec/11.5, spec/11.6). -/

namespace Sys2Proof.Machine

-- One lemma is elaborated after another, which keeps the check's memory low.
set_option Elab.async false

/-! ### The change of an EDIT (R175) -/

section Edited

variable {x : EditFields} {e : Entry} {t : Terms} {s : State}

/-- A setting replaces class, window, groups or label by another value. -/
def EditChanges (x : EditFields) (e : Entry) (t : Terms) : Prop :=
  (edited x e t 0).terms ≠ e.terms ∨ (edited x e t 0).label ≠ e.label

theorem editEntry_eq (h : e.terms = some t) (g : Word16) :
    { editEntry x e with generation := g } = edited x e t g := by
  simp only [editEntry, edited, editTerms, h, Option.map_some]

/-- The tracked fields change with class, window, groups and label, and with no lease (R6). -/
theorem tracked_editEntry (h : e.terms = some t) :
    e.tracked = (editEntry x e).tracked ↔ ¬ EditChanges x e t := by
  have hterms : (editEntry x e).terms = (edited x e t 0).terms := by
    simp only [editEntry, edited, editTerms, h, Option.map_some]
  have hlabel : (editEntry x e).label = (edited x e t 0).label := rfl
  rw [EditChanges, not_or, not_not, not_not, ← hterms, ← hlabel]
  constructor
  · intro heq
    exact ⟨(congrArg Entry.terms heq).symm, (congrArg Entry.label heq).symm⟩
  · rintro ⟨ht, hl⟩
    have hsame : (editEntry x e).tracked =
        { e.tracked with terms := (editEntry x e).terms, label := (editEntry x e).label } := rfl
    rw [hsame, ht, hl]
    rfl

/-- The one change request of an EDIT: the generation advances with a change of what it tracks. -/
theorem applyEdit_eq {u : State} (he : e = entry u x.index) (h : e.terms = some t) :
    ∃ g, (EditChanges x e t → g = e.generation + 1) ∧ (¬ EditChanges x e t → g = e.generation)
      ∧ applyEdit x u =
        withCauses x.index (if x.hasSetting then causeTerms else 0)
          (withEntry x.index (edited x e t g) u) := by
  subst he
  by_cases hc : EditChanges x (entry u x.index) t
  · refine ⟨_, fun _ => rfl, fun hn => absurd hc hn, ?_⟩
    rw [applyEdit, changeEntry_tracked _ fun heq => (tracked_editEntry h).1 heq hc, editEntry_eq h]
  · refine ⟨_, fun hy => absurd hy hc, fun _ => rfl, ?_⟩
    rw [applyEdit, changeEntry_untracked _ ((tracked_editEntry h).2 hc), editEntry_eq h]

end Edited

/-! ### EDIT's checks (R170, R175) -/

section Edit

variable {f : CommandFrame} {s : State} {p : List Byte} {x : EditFields} {e : Entry}

theorem exec_edit (hs : Ready s) (hf : Framed 0x0B f) (hl : f.params.length = 26) :
    exec (.edit f) s = .next (edit f.params (accept f s)) :=
  congrArg Host.Outcome.next (takeCommand_taken hs hf (by simp [hl]) (by omega))

theorem noticeRefused_iff {notify : Bool} :
    noticeRefused notify (accept f s) = true ↔ notify = true ∧ s.phase.phase = .offline := by
  rw [noticeRefused, Bool.and_eq_true, accept_phase, beq_iff_eq]

theorem notice_allowed {notify : Bool} (h : notify = false ∨ s.phase.phase ≠ .offline) :
    ¬ noticeRefused notify (accept f s) = true := by
  rw [noticeRefused_iff]
  rintro ⟨hn, hp⟩
  obtain h | h := h
  · rw [hn] at h; cases h
  · exact h hp

theorem editable_iff : editable e = true ↔ e.live = true ∧ e.origin ≠ some .legacy := by
  rw [editable, Bool.and_eq_true, bne_iff_ne]

theorem cannotHold_iff :
    cannotHold x e = true ↔
      (x.lease ≠ none ∧ e.origin = some .static)
        ∨ ((x.label ≠ none ∨ x.clearLabel = true) ∧ e.origin = some .adopted) := by
  simp only [cannotHold, Bool.or_eq_true, Bool.and_eq_true, beq_iff_eq, Option.isSome_iff_ne_none]

theorem edit_range (h : readEdit p = none) : edit p (accept f s) = completed f .range [] s s := by
  simp only [edit, h, finish_accept]

theorem edit_phase (h : readEdit p = some x) (hn : x.notify = true) (hp : s.phase.phase = .offline) :
    edit p (accept f s) = completed f .phase [] s s := by
  simp only [edit, h, if_pos (noticeRefused_iff.2 ⟨hn, hp⟩), finish_accept]

theorem edit_stale (h : readEdit p = some x) (hn : x.notify = false ∨ s.phase.phase ≠ .offline)
    (hg : (entry s x.index).generation ≠ x.expected) :
    edit p (accept f s) = completed f .stale [] s s := by
  have hgen : (entry (accept f s) x.index).generation ≠ x.expected := hg
  simp only [edit, h, if_neg (notice_allowed hn), if_pos hgen, finish_accept]

theorem edit_notLive (h : readEdit p = some x) (hn : x.notify = false ∨ s.phase.phase ≠ .offline)
    (hg : (entry s x.index).generation = x.expected) (he : ¬ editable (entry s x.index) = true) :
    edit p (accept f s) = completed f .notLive [] s s := by
  have hgen : ¬ (entry (accept f s) x.index).generation ≠ x.expected := not_not.2 hg
  have hed : ¬ editable (entry (accept f s) x.index) = true := he
  simp only [edit, h, if_neg (notice_allowed hn), if_neg hgen, if_pos hed, finish_accept]

theorem edit_cannotHold (h : readEdit p = some x) (hn : x.notify = false ∨ s.phase.phase ≠ .offline)
    (hg : (entry s x.index).generation = x.expected) (he : editable (entry s x.index) = true)
    (hc : cannotHold x (entry s x.index) = true) :
    edit p (accept f s) = completed f .range [] s s := by
  have hgen : ¬ (entry (accept f s) x.index).generation ≠ x.expected := not_not.2 hg
  have hed : ¬ ¬ editable (entry (accept f s) x.index) = true := not_not.2 he
  have hcan : cannotHold x (entry (accept f s) x.index) = true := hc
  simp only [edit, h, if_neg (notice_allowed hn), if_neg hgen, if_neg hed, if_pos hcan, finish_accept]

/-- An EDIT that passes its checks changes the entry, and completes or hands over its notice. -/
theorem edit_passes (h : readEdit p = some x) (hn : x.notify = false ∨ s.phase.phase ≠ .offline)
    (hg : (entry s x.index).generation = x.expected) (he : editable (entry s x.index) = true)
    (hc : ¬ cannotHold x (entry s x.index) = true) :
    edit p (accept f s) =
      if x.notify then
        handOver (orZero (entry s x.index).address)
          (grantNotice (applyEdit x (accept f s)) (entry (applyEdit x (accept f s)) x.index)) [.engine]
          (waitFor (.notice x.index (entry (applyEdit x (accept f s)) x.index).generation)
            (applyEdit x (accept f s)))
      else
        finish .ok (noticeData x.index (entry (applyEdit x (accept f s)) x.index).generation .none)
          (applyEdit x (accept f s)) := by
  have hgen : ¬ (entry (accept f s) x.index).generation ≠ x.expected := not_not.2 hg
  have hed : ¬ ¬ editable (entry (accept f s) x.index) = true := not_not.2 he
  have hcan : ¬ cannotHold x (entry (accept f s) x.index) = true := hc
  simp only [edit, h, if_neg (notice_allowed hn), if_neg hgen, if_neg hed, if_neg hcan]
  rfl

theorem noticeData_none (i : Index) (g : Word16) :
    noticeData i g .none = [oneByte i.val] ++ word16Bytes g ++ [0] := rfl

/-- Without notify the command completes with the entry's new generation. -/
theorem edit_replaces {t : Terms} (h : readEdit p = some x) (hn : x.notify = false)
    (hg : (entry s x.index).generation = x.expected) (he : editable (entry s x.index) = true)
    (hc : ¬ cannotHold x (entry s x.index) = true) (ht : (entry s x.index).terms = some t) :
    ∃ g, (EditChanges x (entry s x.index) t → g = (entry s x.index).generation + 1)
      ∧ (¬ EditChanges x (entry s x.index) t → g = (entry s x.index).generation)
      ∧ edit p (accept f s) =
        completed f .ok ([oneByte x.index.val] ++ word16Bytes g ++ [0]) s
          (withCauses x.index (if x.hasSetting then causeTerms else 0)
            (withEntry x.index (edited x (entry s x.index) t g) s)) := by
  obtain ⟨g, hchanged, hsame, happly⟩ := applyEdit_eq (u := accept f s) rfl ht
  refine ⟨g, hchanged, hsame, ?_⟩
  rw [edit_passes h (Or.inl hn) hg he hc, if_neg (by rw [hn]; decide), happly, entry_changed_same,
    noticeData_none]
  exact finish_of_host_eq_accept _ _ rfl

/-- With notify it hands over a GRANT of the entry after the edit, and waits for it. -/
theorem edit_notifies {t : Terms} {a : Nat} (h : readEdit p = some x) (hn : x.notify = true)
    (hp : s.phase.phase ≠ .offline) (hg : (entry s x.index).generation = x.expected)
    (he : editable (entry s x.index) = true) (hc : ¬ cannotHold x (entry s x.index) = true)
    (ht : (entry s x.index).terms = some t) (ha : (entry s x.index).address = some a) :
    ∃ g, (EditChanges x (entry s x.index) t → g = (entry s x.index).generation + 1)
      ∧ (¬ EditChanges x (entry s x.index) t → g = (entry s x.index).generation)
      ∧ edit p (accept f s) =
        handOver a
          (.grant ((entry s x.index).identity.getD 0) a (x.cls.getD t.cls) (x.window.getD t.window)
            (orZero (x.lease.or (entry s x.index).lease)) s.phase.params.tickPeriod g) [.engine]
          (inHand f (.notice x.index g) s
            (withCauses x.index (if x.hasSetting then causeTerms else 0)
              (withEntry x.index (edited x (entry s x.index) t g) s))) := by
  obtain ⟨g, hchanged, hsame, happly⟩ := applyEdit_eq (u := accept f s) rfl ht
  refine ⟨g, hchanged, hsame, ?_⟩
  rw [edit_passes h (Or.inr hp) hg he hc, if_pos hn, happly, entry_changed_same,
    waitFor_of_host_eq_accept (f := f) (s := s)
      (t := withCauses x.index _ (withEntry x.index _ (accept f s))) _ rfl, ha]
  have hnotice : ∀ u : State, u.phase = s.phase →
      grantNotice u (edited x (entry (accept f s) x.index) t g) =
        .grant ((entry s x.index).identity.getD 0) a (x.cls.getD t.cls) (x.window.getD t.window)
          (orZero (x.lease.or (entry s x.index).lease)) s.phase.params.tickPeriod g := by
    intro u hu
    have haddress : (edited x (entry (accept f s) x.index) t g).address = some a := ha
    rw [grantNotice, haddress, hu]
    rfl
  rw [hnotice (withCauses x.index _ (withEntry x.index _ (accept f s))) rfl]
  rfl

end Edit

/-! ### The end of a binding by the host (R12, R13, R177, R178) -/

section Ending

variable {f : CommandFrame} {s u : State} {p : List Byte} {x : EndFields} {e : Entry} {i : Index}

theorem exec_revoke (hs : Ready s) (hf : Framed 0x0C f) (hl : f.params.length = 5) :
    exec (.revoke f) s = .next (revoke f.params (accept f s)) :=
  congrArg Host.Outcome.next (takeCommand_taken hs hf (by simp [hl]) (by omega))

theorem exec_confirmEvict (hs : Ready s) (hf : Framed 0x0D f) (hl : f.params.length = 5) :
    exec (.confirmEvict f) s = .next (confirmEvict f.params (accept f s)) :=
  congrArg Host.Outcome.next (takeCommand_taken hs hf (by simp [hl]) (by omega))

/-- The state in which the host has ended a live binding: with a hold, where one is asked for and the entry
has a lease, and hold ticks is above 0; and otherwise to FREE. -/
def hostEnded (held : Bool) (cause : HeldCause) (i : Index) (s : State) : State :=
  if held && (entry s i).leased && s.phase.params.hold != 0 then heldBy cause i s else released i s

theorem endBinding_live (cause : HeldCause) (h : (entry s i).live = true) :
    endBinding cause i s = hostEnded true cause i s := by
  obtain ⟨hfree, hheld, _⟩ := live_states h
  by_cases hl : (entry s i).leased = true
  · by_cases h0 : s.phase.params.hold = 0
    · simp [endBinding, hostEnded, hl, h0, holdEntry_eq hfree hheld]
    · simp [endBinding, hostEnded, hl, h0, holdEntry_eq hfree hheld]
  · simp [endBinding, hostEnded, hl, freeEntry_released hfree]

theorem freeEntry_live (cause : HeldCause) (h : (entry s i).live = true) :
    freeEntry i s = hostEnded false cause i s := by
  rw [freeEntry_released (live_states h).1]
  rfl

theorem hostEnded_generation (held : Bool) (cause : HeldCause) (i : Index) (s : State) :
    (entry (hostEnded held cause i s) i).generation = (entry s i).generation + 1 := by
  rw [hostEnded]
  split
  · rw [heldBy, entry_changed_same]
  · rw [released, entry_changed_same]; rfl

theorem hostEnded_host (held : Bool) (cause : HeldCause) (i : Index) (s : State) :
    (hostEnded held cause i s).host = s.host := by
  rw [hostEnded]
  split <;> rfl

theorem hostEnded_join (held : Bool) (cause : HeldCause) (i : Index) (s : State) :
    (hostEnded held cause i s).join = s.join := by
  rw [hostEnded]
  split <;> rfl

/-- What the host ends does not depend on the command in hand. -/
theorem completed_hostEnded (held : Bool) (cause : HeldCause) (i : Index) (st : Status) (d : List Byte) :
    completed f st d s (hostEnded held cause i (accept f s)) =
      completed f st d s (hostEnded held cause i s) := by
  rw [hostEnded, hostEnded]
  have hentry : entry (accept f s) i = entry s i := rfl
  rw [hentry, accept_phase]
  split <;> rfl

theorem inHand_hostEnded (held : Bool) (cause : HeldCause) (i : Index) (w : Work) :
    inHand f w s (hostEnded held cause i (accept f s)) = inHand f w s (hostEnded held cause i s) := by
  rw [hostEnded, hostEnded]
  have hentry : entry (accept f s) i = entry s i := rfl
  rw [hentry, accept_phase]
  split <;> rfl

/-- The engine alone is told of a notice, which leaves the contexts as they are. -/
theorem handOver_engine_join (d : Nat) (a : Answer) (s : State) :
    (handOver d a [.engine] s).join = s.join := by
  have hreport : ∀ u : State, (reportAll .dropped [.engine] u).join = u.join := by
    intro u
    show (reportTo .dropped .engine u).join = u.join
    obtain h | ⟨_, _, _, _, hw, _⟩ | ⟨_, _, _, _, _, _, h⟩ := reportTo_cases .dropped .engine u
    · rw [h]
    · cases hw
    · rw [h, finish_join]
  obtain ⟨_, h⟩ | ⟨_, _, h⟩ | ⟨_, _, _, _, _, _, h⟩ | ⟨_, _, _, _, _, _, h⟩ | ⟨_, _, _, _, _, _, h⟩ :=
    handOver_cases d a [.engine] s
  all_goals rw [h]
  · exact hreport s
  · rw [takeUp_join]
  · rw [hreport, setPart_join, count_join]

/-- Without notify the command completes, and then a probe against the entry concludes GONE. -/
theorem afterEnding_completes {after : State → State} {held : Bool} {cause : HeldCause}
    (reason : RevokeReason) (hg : GoneThen s i after) :
    afterEnding i false e reason (hostEnded held cause i (accept f s)) =
      after (completed f .ok
        ([oneByte i.val] ++ word16Bytes ((entry s i).generation + 1) ++ [0]) s
        (hostEnded held cause i s)) := by
  have hhost : (hostEnded held cause i (accept f s)).host = (accept f s).host := hostEnded_host _ _ _ _
  rw [afterEnding, if_neg (by decide), hostEnded_generation, finish_of_host_eq_accept _ _ hhost,
    completed_hostEnded]
  exact probeGone_eq hg (hostEnded_join held cause i s)

/-- With notify it hands over REVOKED and waits for it, before a probe concludes GONE. -/
theorem afterEnding_notifies {after : State → State} {held : Bool} {cause : HeldCause} {a : Nat}
    (reason : RevokeReason) (hg : GoneThen s i after) (ha : e.address = some a) :
    afterEnding i true e reason (hostEnded held cause i (accept f s)) =
      after (handOver a (.revoked (e.identity.getD 0) reason) [.engine]
        (inHand f (.notice i ((entry s i).generation + 1)) s (hostEnded held cause i s))) := by
  have hhost : (hostEnded held cause i (accept f s)).host = (accept f s).host := hostEnded_host _ _ _ _
  rw [afterEnding, if_pos rfl, hostEnded_generation, waitFor_of_host_eq_accept _ hhost,
    inHand_hostEnded, ha]
  exact probeGone_eq hg ((handOver_engine_join _ _ _).trans (hostEnded_join held cause i s))

theorem revoke_range (h : readEnd p = none) : revoke p (accept f s) = completed f .range [] s s := by
  simp only [revoke, h, finish_accept]

theorem revoke_phase (h : readEnd p = some x) (hn : x.notify = true) (hp : s.phase.phase = .offline) :
    revoke p (accept f s) = completed f .phase [] s s := by
  simp only [revoke, h, if_pos (noticeRefused_iff.2 ⟨hn, hp⟩), finish_accept]

theorem revoke_stale (h : readEnd p = some x) (hn : x.notify = false ∨ s.phase.phase ≠ .offline)
    (hg : (entry s x.index).generation ≠ x.expected) :
    revoke p (accept f s) = completed f .stale [] s s := by
  have hgen : (entry (accept f s) x.index).generation ≠ x.expected := hg
  simp only [revoke, h, if_neg (notice_allowed hn), if_pos hgen, finish_accept]

theorem revoke_notLive (h : readEnd p = some x) (hn : x.notify = false ∨ s.phase.phase ≠ .offline)
    (hg : (entry s x.index).generation = x.expected) (hl : ¬ (entry s x.index).live = true) :
    revoke p (accept f s) = completed f .notLive [] s s := by
  have hgen : ¬ (entry (accept f s) x.index).generation ≠ x.expected := not_not.2 hg
  have hlive : ¬ (entry (accept f s) x.index).live = true := hl
  simp only [revoke, h, if_neg (notice_allowed hn), if_neg hgen, if_pos hlive, finish_accept]

theorem revoke_ends (h : readEnd p = some x) (hn : x.notify = false ∨ s.phase.phase ≠ .offline)
    (hg : (entry s x.index).generation = x.expected) (hl : (entry s x.index).live = true) :
    revoke p (accept f s) =
      afterEnding x.index x.notify (entry s x.index) .host
        (hostEnded (!x.second) .revoked x.index (accept f s)) := by
  have hgen : ¬ (entry (accept f s) x.index).generation ≠ x.expected := not_not.2 hg
  have hlive : (entry (accept f s) x.index).live = true := hl
  have hended : (if x.second then freeEntry x.index (accept f s)
      else endBinding .revoked x.index (accept f s)) =
        hostEnded (!x.second) .revoked x.index (accept f s) := by
    cases x.second with
    | true => exact freeEntry_live .revoked hlive
    | false => exact endBinding_live .revoked hlive
  simp only [revoke, h, if_neg (notice_allowed hn), if_neg hgen, if_neg (not_not.2 hlive), hended]
  rfl

theorem evict_range (h : readEnd p = none) :
    confirmEvict p (accept f s) = completed f .range [] s s := by
  simp only [confirmEvict, h, finish_accept]

theorem evict_phase (h : readEnd p = some x) (h2 : x.second = true) (hn : x.notify = true)
    (hp : s.phase.phase = .offline) : confirmEvict p (accept f s) = completed f .phase [] s s := by
  simp only [confirmEvict, h, if_neg (not_not.2 h2), if_pos (noticeRefused_iff.2 ⟨hn, hp⟩),
    finish_accept]

theorem evict_stale (h : readEnd p = some x) (h2 : x.second = true)
    (hn : x.notify = false ∨ s.phase.phase ≠ .offline)
    (hg : (entry s x.index).generation ≠ x.expected) :
    confirmEvict p (accept f s) = completed f .stale [] s s := by
  have hgen : (entry (accept f s) x.index).generation ≠ x.expected := hg
  simp only [confirmEvict, h, if_neg (not_not.2 h2), if_neg (notice_allowed hn), if_pos hgen,
    finish_accept]

theorem evict_notLive (h : readEnd p = some x) (h2 : x.second = true)
    (hn : x.notify = false ∨ s.phase.phase ≠ .offline)
    (hg : (entry s x.index).generation = x.expected)
    (hc : ¬ ((entry s x.index).live = true ∧ (entry s x.index).dispute.present = true)) :
    confirmEvict p (accept f s) = completed f .notLive [] s s := by
  have hgen : ¬ (entry (accept f s) x.index).generation ≠ x.expected := not_not.2 hg
  have hconf : ¬ confirmable (entry (accept f s) x.index) = true := fun hk => hc (confirmable_iff.1 hk)
  simp only [confirmEvict, h, if_neg (not_not.2 h2), if_neg (notice_allowed hn), if_neg hgen,
    if_pos hconf, finish_accept]

theorem evict_ends (h : readEnd p = some x) (h2 : x.second = true)
    (hn : x.notify = false ∨ s.phase.phase ≠ .offline)
    (hg : (entry s x.index).generation = x.expected) (hl : (entry s x.index).live = true)
    (hd : (entry s x.index).dispute.present = true) :
    confirmEvict p (accept f s) =
      afterEnding x.index x.notify (entry s x.index) .evicted
        (hostEnded true .evicted x.index (accept f s)) := by
  have hgen : ¬ (entry (accept f s) x.index).generation ≠ x.expected := not_not.2 hg
  have hconf : ¬ ¬ confirmable (entry (accept f s) x.index) = true :=
    not_not.2 (confirmable_iff.2 ⟨hl, hd⟩)
  have hended : endBinding .evicted x.index (accept f s) =
      hostEnded true .evicted x.index (accept f s) := endBinding_live (s := accept f s) .evicted hl
  simp only [confirmEvict, h, if_neg (not_not.2 h2), if_neg (notice_allowed hn), if_neg hgen,
    if_neg hconf, hended]
  rfl

end Ending

/-! ### What becomes of a notice (R126, R164) -/

section Notice

variable {f : CommandFrame} {s t : State} {a : Nat} {m : Answer} {i : Index} {g : Word16}

/-- Counting reads and writes the change unit alone. -/
theorem count_change_congr {s t : State} (c : Counter) (h : t.change = s.change) :
    (count c t).change = (count c s).change := by
  have hcounter : counter t c = counter s c := by rw [counter, h, counter]
  by_cases hlt : counter s c < 65535
  · rw [count_below hlt, count_below (hcounter ▸ hlt), hcounter, h]
  · rw [counter_saturated (not_lt.1 hlt), counter_saturated (hcounter ▸ not_lt.1 hlt), h]

/-- A notice for which there is room leaves its command in hand. -/
theorem notice_with_room (hp : t.phase.phase ≠ .offline) (hroom : t.port.queue.length < 16) :
    (handOver a m [.engine] (inHand f (.notice i g) s t)).host =
      hostAfter (.executing ⟨f.tag, f.code, f.params, .notice i g⟩) s := by
  obtain ⟨hoff, _⟩ | ⟨_, _, h⟩ | ⟨_, _, _, _, _, _, h⟩ | ⟨b, q, _, hq, _, hfull, _⟩
      | ⟨_, _, _, _, _, _, h⟩ := handOver_cases a m [.engine] (inHand f (.notice i g) s t)
  · exact absurd hoff hp
  · rw [h, takeUp_host]; rfl
  · rw [h]; rfl
  · have hlen : t.port.queue.length = q.length + 1 := congrArg List.length hq
    have : 16 ≤ q.length + 1 := hfull
    omega
  · rw [h]; rfl

/-- A notice that finds a full queue is dropped as any other message, and completes its command. -/
theorem notice_dropped (hp : t.phase.phase ≠ .offline) (hfull : 16 ≤ t.port.queue.length)
    (hnew : ∀ b ∈ t.port.queue.tail, ¬ (b.destination = a ∧ b.answer = m)) :
    handOver a m [.engine] (inHand f (.notice i g) s t) =
      completed f .ok ([oneByte i.val] ++ word16Bytes g ++ [2]) s
        (setPart partQueueDrop (count .answerDrops t)) := by
  obtain ⟨b, q, hq⟩ : ∃ b q, t.port.queue = b :: q :=
    List.exists_cons_of_length_pos (by omega)
  have hqueue : (inHand f (.notice i g) s t).port.queue = b :: q := hq
  rw [hq] at hfull hnew
  have hmerge : mergeInto a m [.engine] q = none := mergeInto_none.2 hnew
  have hphase : ¬ (inHand f (.notice i g) s t).phase.phase = .offline := hp
  have hlen : Config.queueMessages ≤ q.length + 1 := hfull
  simp only [handOver, if_neg hphase, hqueue, hmerge, if_pos hlen]
  have hcount : count .answerDrops (inHand f (.notice i g) s t) =
      { inHand f (.notice i g) s t with change := (count .answerDrops t).change } := by
    rw [count_eq, count_change_congr .answerDrops (show (inHand f (.notice i g) s t).change = t.change
      from rfl)]
  rw [hcount, count_eq .answerDrops t]
  rfl

end Notice

/-! ### The obligations -/

/-- Settles O29: the fields as bytes, EDIT's checks in their order, and the change. -/
theorem editReplacesSettings : Obligations.EditReplacesSettings := by
  intro f s hs hf hl
  rw [exec_edit hs hf hl]
  refine ⟨readEdit_eq_none_iff, readGroups_eq_none_iff, readLabel_eq_none_iff, fun h => ?_,
    fun x e h he => ?_⟩
  · rw [edit_range h]
  subst he
  obtain ⟨h1, h2, h3, h4, h5, h6, h7, h8, h9⟩ := readEdit_bytes h
  refine ⟨h1, h2, h3, h4, h5, h6, h7, h8, h9, fun hn hp => ?_, fun hn => ⟨fun hg => ?_, fun hg =>
    ⟨fun hne => ?_, fun hlive hleg hcan => ?_⟩⟩, fun t hn hg hlive hleg ht hlease hlabel => ?_⟩
  · rw [edit_phase h hn hp]
  · rw [edit_stale h hn hg]
  · rw [edit_notLive h hn hg]
    rw [editable_iff]
    rintro ⟨hlive, hleg⟩
    exact hne.elim (fun k => k hlive) hleg
  · rw [edit_cannotHold h hn hg (editable_iff.2 ⟨hlive, hleg⟩) (cannotHold_iff.2 hcan)]
  · obtain ⟨g, hchanged, hsame, hedit⟩ := edit_replaces (f := f) h hn hg
      (editable_iff.2 ⟨hlive, hleg⟩)
      (fun hc => (cannotHold_iff.1 hc).elim (fun k => hlease k.1 k.2) fun k => hlabel k.1 k.2) ht
    exact ⟨g, hchanged, hsame, congrArg _ hedit⟩

/-- Settles O30: the fields as bytes, each command's checks in their order, and the end of the binding. -/
theorem hostEndsBinding : Obligations.HostEndsBinding := by
  intro f s hs hl
  refine ⟨readEnd_eq_none_iff, fun h => ⟨fun hf => ?_, fun hf => ?_⟩, fun x e h he => ?_⟩
  · rw [exec_revoke hs hf hl, revoke_range h]
  · rw [exec_confirmEvict hs hf hl, evict_range h]
  subst he
  obtain ⟨h1, h2, h3, h4⟩ := readEnd_bytes h
  refine ⟨h1, h2, (option_iff h3).1, (option_iff h4).1, fun hn hp => ⟨fun hf => ?_, fun he hf => ?_⟩,
    fun hn => ⟨fun hg => ⟨fun hf => ?_, fun he hf => ?_⟩, fun hg => ⟨fun hlive hf => ?_,
      fun hc he hf => ?_⟩⟩, fun after hn hg hlive hgone => ⟨fun hf => ?_, fun he hd hf => ?_⟩⟩
  · rw [exec_revoke hs hf hl, revoke_phase h hn hp]
  · rw [exec_confirmEvict hs hf hl, evict_phase h he hn hp]
  · rw [exec_revoke hs hf hl, revoke_stale h hn hg]
  · rw [exec_confirmEvict hs hf hl, evict_stale h he hn hg]
  · rw [exec_revoke hs hf hl, revoke_notLive h hn hg hlive]
  · rw [exec_confirmEvict hs hf hl, evict_notLive h he hn hg hc]
  · rw [exec_revoke hs hf hl, revoke_ends h (Or.inl hn) hg hlive, hn,
      afterEnding_completes .host hgone]
    rfl
  · rw [exec_confirmEvict hs hf hl, evict_ends h he (Or.inl hn) hg hlive hd, hn,
      afterEnding_completes .evicted hgone]
    rfl

/-- Settles O32: each command with its notice handed over, and the notice with room and without. -/
theorem noticeHoldsCommand : Obligations.NoticeHoldsCommand := by
  refine ⟨fun f s e a hs hp ha hlive => ⟨fun x t hf hl h hn he hg hed hc ht => ?_,
    fun x after hl h hn he hg hgone => ?_⟩, fun f s t a m i g hp =>
      ⟨fun hroom => notice_with_room hp hroom, fun hfull hnew => notice_dropped hp hfull hnew⟩⟩
  · subst he
    obtain ⟨g, hchanged, hsame, hedit⟩ := edit_notifies (f := f) h hn hp hg hed hc ht ha
    exact ⟨g, hchanged, hsame, (exec_edit hs hf hl).trans (congrArg _ hedit)⟩
  · subst he
    refine ⟨fun hf => ?_, fun hf he hd => ?_⟩
    · rw [exec_revoke hs hf hl, revoke_ends h (Or.inr hp) hg hlive, hn,
        afterEnding_notifies .host hgone ha]
      rfl
    · rw [exec_confirmEvict hs hf hl, evict_ends h he (Or.inr hp) hg hlive hd, hn,
        afterEnding_notifies .evicted hgone ha]
      rfl

end Sys2Proof.Machine
end

section
/-! The reads of the host (spec/11.7, spec/06.5), and the layouts of the entry and context records
(spec/12.3). -/

namespace Sys2Proof.Machine

-- One lemma is elaborated after another, which keeps the check's memory low.
set_option Elab.async false

/-! ### Fields of a record -/

/-- Two bytes that spell a 16-bit number are read back as that number. -/
theorem word16At_of_field {bytes : List Byte} {k : Nat} {x : Word16}
    (h : fieldAt bytes k 2 = word16Bytes x) : word16At bytes k = x := by
  have hn : natAt bytes k 2 = x.toNat := by
    rw [natAt, ← fieldAt, h, word16Bytes, beNat_beBytes]
    exact Nat.mod_eq_of_lt x.isLt
  rw [word16At, hn, BitVec.ofNat_toNat, BitVec.setWidth_eq]

/-- A byte of flags has each flag in its bit. -/
theorem flags_bits : ∀ a b c d e f g h : Bool,
    (List.range 8).map
      (oneByte (bitValue a 1 + bitValue b 2 + bitValue c 4 + bitValue d 8 + bitValue e 16
        + bitValue f 32 + bitValue g 64 + bitValue h 128)).getLsbD = [a, b, c, d, e, f, g, h] := by
  decide +kernel

theorem padTo_length (n : Nat) (l : List Byte) : (padTo n l).length = n := by
  simp [padTo]

theorem groupsField_length (g : Option (List Nat)) : (groupsField g).length = 5 := by
  cases g with
  | none => exact padTo_length 5 []
  | some g => rw [groupsField, List.length_cons, padTo_length]

theorem labelField_length (l : Option (List Byte)) : (labelField l).length = 13 := by
  cases l with
  | none => exact padTo_length 13 []
  | some l => rw [labelField, List.length_cons, padTo_length]

theorem groupsField_layout (g : Option (List Nat)) : GroupsField g (groupsField g) :=
  ⟨fun h => by rw [h]; rfl, fun l h => by rw [h]; rfl⟩

theorem labelField_layout (l : Option (List Byte)) : LabelField l (labelField l) :=
  ⟨fun h => by rw [h]; rfl, fun c h => by rw [h]; rfl⟩

theorem numberField_layout (n : Option Nat) : NumberField n (beBytes 2 (orZero n)) :=
  ⟨fun h => by rw [h]; rfl, fun m h => by rw [h]; rfl⟩

/-- A list of five bytes, byte by byte. -/
theorem exists_five {l : List Byte} (h : l.length = 5) : ∃ a b c d e, l = [a, b, c, d, e] :=
  match l, h with
  | [a, b, c, d, e], _ => ⟨a, b, c, d, e, rfl⟩

/-- A list of thirteen bytes, byte by byte. -/
theorem exists_thirteen {l : List Byte} (h : l.length = 13) :
    ∃ a b c d e f g h i j k m n, l = [a, b, c, d, e, f, g, h, i, j, k, m, n] :=
  match l, h with
  | [a, b, c, d, e, f, g, h, i, j, k, m, n], _ => ⟨a, b, c, d, e, f, g, h, i, j, k, m, n, rfl⟩

/-! ### The entry record (R186) -/

theorem entryRecord_layout (e : Entry) : EntryLayout e (entryRecord e) := by
  have hgroups := groupsField_layout (e.terms.map Terms.groups)
  have hlabel := labelField_layout e.label
  obtain ⟨g0, g1, g2, g3, g4, hg⟩ := exists_five (groupsField_length (e.terms.map Terms.groups))
  obtain ⟨l0, l1, l2, l3, l4, l5, l6, l7, l8, l9, l10, l11, l12, hl⟩ :=
    exists_thirteen (labelField_length e.label)
  rw [hg] at hgroups
  rw [hl] at hlabel
  rw [entryRecord, hg, hl]
  refine ⟨rfl, ?state, ?origin, ?present, word16At_of_field rfl, identityAt_of_field rfl,
    word16At_of_field rfl, rfl, fun h => ⟨?_, ?_⟩, fun t h => ⟨?_, ?_⟩, hgroups, hlabel,
    numberField_layout e.lease, numberField_layout e.remaining, ?cause, ?dispute⟩
  case state =>
    show oneByte e.state.code = _
    cases e.state <;> rfl
  case origin =>
    show oneByte (originCode e.origin) = _
    cases e.origin with
    | none => rfl
    | some o => cases o <;> rfl
  case present => exact flags_bits _ _ _ _ _ _ false false
  case cause =>
    show oneByte (heldCode e.heldCause) = _
    cases e.heldCause with
    | none => rfl
    | some h => cases h <;> rfl
  case dispute => exact flags_bits _ _ false false false false false false
  · show oneByte (orZero (e.terms.map (fun t => t.cls.val))) = 0
    rw [h]; rfl
  · show oneByte (orZero (e.terms.map Terms.window)) = 0
    rw [h]; rfl
  · show oneByte (orZero (e.terms.map (fun t => t.cls.val))) = _
    rw [h]; rfl
  · show oneByte (orZero (e.terms.map Terms.window)) = _
    rw [h]; rfl

theorem entryRecord_freeAt (g : Word16) :
    entryRecord (.freeAt g) = [0, 0, 0] ++ word16Bytes g ++ List.replicate 37 0 := by
  have hid : identityBytes 0 = List.replicate 8 0 := by decide
  have hinc : word16Bytes 0 = List.replicate 2 0 := by decide
  simp only [entryRecord, Entry.freeAt, Option.getD_none, hid, hinc]
  rfl

/-- A FREE entry shows its state and generation alone (R1). -/
theorem entryRecord_free {e : Entry} (h : EntrySound e) (hf : e.state = .free) :
    entryRecord e = [0, 0, 0] ++ word16Bytes e.generation ++ List.replicate 37 0 := by
  obtain ⟨hfree, _⟩ := h
  calc entryRecord e
      = entryRecord (.freeAt e.generation) := congrArg entryRecord (hfree hf)
    _ = [0, 0, 0] ++ word16Bytes e.generation ++ List.replicate 37 0 := entryRecord_freeAt e.generation

/-! ### The context record (R180, R186) -/

/-- The units shown are those that the time still to run takes up, the last one begun. -/
theorem unitsLeft_bounds (d now : Nat) :
    d - now ≤ unitsLeft d now * 10000 ∧ unitsLeft d now * 10000 < d - now + 10000 := by
  rw [unitsLeft, Config.unit10ms]
  omega

theorem offerField_length (o : Option Offer) : (offerField o).length = 7 := by
  cases o with
  | none => exact padTo_length 7 []
  | some o => rfl

theorem timerField_length (now : Nat) (g : Stage) : (timerField now g).length = 2 := by
  rcases g with d | ⟨n, k | d⟩ | o <;> rfl

/-- A list of seven bytes, byte by byte. -/
theorem exists_seven {l : List Byte} (h : l.length = 7) : ∃ a b c d e f g, l = [a, b, c, d, e, f, g] :=
  match l, h with
  | [a, b, c, d, e, f, g], _ => ⟨a, b, c, d, e, f, g, rfl⟩

/-- A list of two bytes, byte by byte. -/
theorem exists_two {l : List Byte} (h : l.length = 2) : ∃ a b, l = [a, b] :=
  match l, h with
  | [a, b], _ => ⟨a, b, rfl⟩

/-- A list of eight bytes, byte by byte. -/
theorem exists_eight {l : List Byte} (h : l.length = 8) :
    ∃ a b c d e f g i, l = [a, b, c, d, e, f, g, i] :=
  match l, h with
  | [a, b, c, d, e, f, g, i], _ => ⟨a, b, c, d, e, f, g, i, rfl⟩

/-- The record's last bytes: the offer, where one stands, and the timer. -/
theorem offerField_stage (g : Stage) :
    (g.offer?.isSome = false → offerField g.offer? = List.replicate 7 0)
      ∧ (∀ o, g = .offered o → offerField g.offer? =
          [oneByte o.entry.val, oneByte o.cls.val, oneByte o.address, oneByte o.window]
            ++ beBytes 2 o.lease ++ [oneByte o.turn])
      ∧ (∀ n t, g = .checking n t → oneByte g.tries = oneByte n) := by
  refine ⟨?_, ?_, ?_⟩
  · cases g with
    | collecting d => exact fun _ => rfl
    | checking n t => exact fun _ => rfl
    | offered o => nofun
  · rintro o rfl; rfl
  · rintro n t rfl; rfl

theorem timerField_layout {now : Nat} {g : Stage} {r : List Byte}
    (h : [byteAt r 49, byteAt r 50] = timerField now g) : TimerField now g r := by
  rcases g with d | ⟨n, k | d⟩ | o <;> obtain ⟨hkind, hunits, _⟩ := List.cons.inj h |>.imp_right List.cons.inj
  · exact ⟨hkind, _, hunits, unitsLeft_bounds d now⟩
  · exact hkind
  · exact ⟨hkind, _, hunits, unitsLeft_bounds d now⟩
  · exact ⟨hkind, _, hunits, unitsLeft_bounds o.deadline now⟩

theorem contextRecord_layout (now : Nat) (x : Exchange) :
    ContextLayout now x (contextRecord now (some x)) := by
  have hgroups := groupsField_layout x.groupsPage
  have hlabel := labelField_layout x.label
  obtain ⟨hnoOffer, hoffer, htries⟩ := offerField_stage x.stage
  obtain ⟨g0, g1, g2, g3, g4, hg⟩ := exists_five (groupsField_length x.groupsPage)
  obtain ⟨l0, l1, l2, l3, l4, l5, l6, l7, l8, l9, l10, l11, l12, hl⟩ :=
    exists_thirteen (labelField_length x.label)
  obtain ⟨o0, o1, o2, o3, o4, o5, o6, ho⟩ := exists_seven (offerField_length x.stage.offer?)
  obtain ⟨t0, t1, ht⟩ := exists_two (timerField_length now x.stage)
  rw [hg] at hgroups
  rw [hl] at hlabel
  rw [ho] at hnoOffer hoffer
  obtain ⟨i0, i1, i2, i3, i4, i5, i6, i7, hi⟩ := exists_eight (identityBytes_length x.identity)
  obtain ⟨n0, n1, hn⟩ := exists_two (word16Bytes_length x.incarnation)
  obtain ⟨r0, r1, hr⟩ := exists_two (beBytes_length 2 x.requestedLease)
  obtain ⟨c0, c1, hc⟩ := exists_two (beBytes_length 2 (orZero x.leaseCap))
  have hcap := numberField_layout x.leaseCap
  rw [hc] at hcap
  simp only [contextRecord, hg, hl, ho, ht, hi, hn, hr, hc, List.cons_append, List.nil_append]
  refine ⟨rfl, ?state, identityAt_of_field hi.symm, word16At_of_field hn.symm, rfl, hr.symm, rfl, rfl,
    rfl, (flags_bits _ _ _ _ _ _ _ false).trans ?flags, hgroups, rfl, hlabel, rfl, hcap, fun h => ?noTarget, fun i h => ?target, htries, fun h => hnoOffer ?noOffer,
    hoffer, timerField_layout ht.symm⟩
  case state =>
    show oneByte x.stage.code = _
    cases x.stage <;> rfl
  case flags => cases x.stage <;> rfl
  case noOffer =>
    revert h
    cases x.stage <;> exact id
  case noTarget =>
    show oneByte (orZero (x.target.map Fin.val)) = 0
    rw [h]; rfl
  case target =>
    show oneByte (orZero (x.target.map Fin.val)) = _
    rw [h]; rfl

theorem idleRecord_layout (now : Nat) : IdleLayout (contextRecord now none) := by
  refine ⟨rfl, rfl, rfl, rfl, rfl, rfl, rfl⟩

/-! ### The commands -/

section Reads

variable {f : CommandFrame} {s : State} {n : Byte}

theorem exec_readParameter (hs : Ready s) (hf : Framed 0x02 f) (hl : f.params.length = 1) :
    exec (.readParameter f) s = .next (readParameter f.params (accept f s)) :=
  congrArg Host.Outcome.next (takeCommand_taken hs hf (by simp [hl]) (by omega))

theorem exec_readEntry (hs : Ready s) (hf : Framed 0x0E f) (hl : f.params.length = 1) :
    exec (.readEntry f) s = .next (readEntry f.params (accept f s)) :=
  congrArg Host.Outcome.next (takeCommand_taken hs hf (by simp [hl]) (by omega))

theorem exec_readContext (hs : Ready s) (hf : Framed 0x11 f) (hl : f.params.length = 1) :
    exec (.readContext f) s = .next (readContext f.params (accept f s)) :=
  congrArg Host.Outcome.next (takeCommand_taken hs hf (by simp [hl]) (by omega))

theorem exec_findAddress (hs : Ready s) (hf : Framed 0x0F f) (hl : f.params.length = 1) :
    exec (.findAddress f) s = .next (findAddress f.params (accept f s)) :=
  congrArg Host.Outcome.next (takeCommand_taken hs hf (by simp [hl]) (by omega))

theorem readParameter_named {k : Param} (h : Param.ofNumber n.toNat = some k) :
    readParameter [n] (accept f s) = completed f .ok (beBytes 4 (s.phase.params.get k)) s s := by
  have hname : Param.ofNumber (byteAt [n] 0).toNat = some k := h
  simp only [readParameter, hname, finish_accept, accept_phase]

theorem readParameter_unnamed (h : Param.ofNumber n.toNat = none) :
    readParameter [n] (accept f s) = completed f .range [] s s := by
  have hname : Param.ofNumber (byteAt [n] 0).toNat = none := h
  simp only [readParameter, hname, finish_accept]

theorem readEntry_eq :
    readEntry [n] (accept f s) =
      if h : n.toNat < 160 then
        completed f .ok (n :: entryRecord (entry s ⟨n.toNat, h⟩)) s s
      else completed f .range [] s s := by
  have hbyte : byteAt [n] 0 = n := rfl
  by_cases h : n.toNat < 160
  · have hindex : oneByte n.toNat = n := by rw [oneByte, BitVec.ofNat_toNat, BitVec.setWidth_eq]
    simp only [readEntry, readIndex, hbyte, dif_pos h, finish_accept, hindex]
    rfl
  · simp only [readEntry, readIndex, hbyte, dif_neg h, finish_accept]

theorem readContext_eq :
    readContext [n] (accept f s) =
      if h : n.toNat < 8 then
        completed f .ok (contextRecord s.now (context s ⟨n.toNat, h⟩)) s s
      else completed f .range [] s s := by
  have hbyte : byteAt [n] 0 = n := rfl
  by_cases h : n.toNat < 8
  · simp only [readContext, hbyte, dif_pos h, finish_accept]
    rfl
  · simp only [readContext, hbyte, dif_neg h, finish_accept]

theorem findAddress_range (h : n.toNat = 0 ∨ 239 < n.toNat) :
    findAddress [n] (accept f s) = completed f .range [] s s := by
  have hrange : (byteAt [n] 0).toNat = 0 ∨ Config.maxAddress < (byteAt [n] 0).toNat := h
  simp only [findAddress, if_pos hrange, finish_accept]

theorem findAddress_inRange (h1 : 1 ≤ n.toNat) (h2 : n.toNat ≤ 239) :
    ¬ ((byteAt [n] 0).toNat = 0 ∨ Config.maxAddress < (byteAt [n] 0).toNat) := by
  show ¬ (n.toNat = 0 ∨ 239 < n.toNat)
  omega

theorem findAddress_found {i : Index} (h1 : 1 ≤ n.toNat) (h2 : n.toNat ≤ 239)
    (hi : entryAt s n.toNat = some i) :
    findAddress [n] (accept f s) =
      completed f .ok (oneByte i.val :: entryRecord (entry s i)) s s := by
  have hentry : entryAt (accept f s) (byteAt [n] 0).toNat = some i := hi
  simp only [findAddress, if_neg (findAddress_inRange h1 h2), hentry, finish_accept]
  exact congrArg (fun d => completed f .ok d s s) rfl

theorem findAddress_noEntry (h1 : 1 ≤ n.toNat) (h2 : n.toNat ≤ 239)
    (hu : entryAt s n.toNat = none) :
    findAddress [n] (accept f s) = completed f .noEntry [] s s := by
  have hentry : entryAt (accept f s) (byteAt [n] 0).toNat = none := hu
  simp only [findAddress, if_neg (findAddress_inRange h1 h2), hentry, finish_accept]

end Reads

/-- Settles O33: each read by its field in or out of range, then the records' layouts. -/
theorem readsReturnRecords : Obligations.ReadsReturnRecords := by
  refine ⟨?_, entryRecord_layout, fun e => entryRecord_free, contextRecord_layout, idleRecord_layout⟩
  rintro ⟨tag, code, length, params⟩ s n hs rfl
  refine ⟨fun hf => ⟨fun k hk => ?_, fun hk => ?_⟩, fun hf => ⟨fun h => ?_, fun h => ?_⟩,
    fun hf => ⟨fun h => ?_, fun h => ?_⟩, fun hf => ⟨fun h => ?_, fun h1 h2 hu => ?_, fun h1 h2 i hi => ?_⟩⟩
  · rw [exec_readParameter hs hf rfl, readParameter_named hk]
  · rw [exec_readParameter hs hf rfl, readParameter_unnamed hk]
  · rw [exec_readEntry hs hf rfl, readEntry_eq, dif_pos h]
  · rw [exec_readEntry hs hf rfl, readEntry_eq, dif_neg (by omega)]
  · rw [exec_readContext hs hf rfl, readContext_eq, dif_pos h]
  · rw [exec_readContext hs hf rfl, readContext_eq, dif_neg (by omega)]
  · rw [exec_findAddress hs hf rfl, findAddress_range h]
  · rw [exec_findAddress hs hf rfl, findAddress_noEntry h1 h2 (entryAt_unheld hu)]
  · rw [exec_findAddress hs hf rfl, findAddress_found h1 h2 (entryAt_holds hi)]

end Sys2Proof.Machine
end

section
/-! The lookup unit: how a walk starts, and what one examination does (spec/06). -/

namespace Sys2Proof.Machine

-- One lemma is elaborated after another, which keeps the check's memory low.
set_option Elab.async false

/-! ### The arbiter (R109) -/

section Arbiter

variable {s : State}

/-- The arbiter starts a FIND that waits alone, or that waits with a LOOKUP after a LOOKUP's walk. -/
theorem arbitrate_bus {q : FindRequest} {rest : List FindRequest} (hw : s.lookup.walk = none)
    (hb : s.lookup.busWaiting = q :: rest)
    (hh : s.lookup.hostSlot = none ∨ s.lookup.lastStarted = .host) :
    arbitrate s = startBus q rest s := by
  cases hslot : s.lookup.hostSlot with
  | none => exact arbitrate_of_find_waiting hw hb hslot
  | some h =>
    have hlast : s.lookup.lastStarted = .host := hh.resolve_left (by rw [hslot]; nofun)
    simp only [arbitrate, hw, hb, hslot, hlast]

/-- The arbiter starts a LOOKUP that waits alone, or that waits with a FIND after a FIND's walk. -/
theorem arbitrate_host {h : LookupRequest} (hw : s.lookup.walk = none)
    (hh : s.lookup.hostSlot = some h)
    (hb : s.lookup.busWaiting = [] ∨ s.lookup.lastStarted = .bus) :
    arbitrate s = startHost h s := by
  cases hwaiting : s.lookup.busWaiting with
  | nil => simp only [arbitrate, hw, hwaiting, hh]
  | cons q rest =>
    have hlast : s.lookup.lastStarted = .bus := hb.resolve_left (by rw [hwaiting]; nofun)
    simp only [arbitrate, hw, hwaiting, hh, hlast]

end Arbiter

/-! ### The requests (R108, R114) -/

section Requests

variable {f : CommandFrame} {s : State} {r : Request} {rest : List Request}

theorem exec_lookup (hs : Ready s) (hf : Framed 0x10 f) (hl : f.params.length = 20) :
    exec (.lookup f) s = .next (lookup f.params (accept f s)) :=
  congrArg Host.Outcome.next (takeCommand_taken hs hf (by simp [hl]) (by omega))

theorem lookup_refused (h : readLookup f.params = none) :
    lookup f.params (accept f s) = completed f .range [] s s := by
  simp only [lookup, h, finish_accept]

theorem lookup_taken {q : LookupRequest} (h : readLookup f.params = some q) :
    lookup f.params (accept f s) =
      arbitrate (inHand f .walk s { s with lookup.hostSlot := some q }) := by
  have hwait : waitFor .walk (accept f s) = inHand f .walk s (accept f s) :=
    waitFor_of_host_eq_accept .walk rfl
  simp only [lookup, h, hwait]
  rfl

theorem exec_find (hf : Front s r rest) (hk : r.kind = .find) :
    exec .find s = .next (takeFind r (popped rest s)) :=
  congrArg Host.Outcome.next (dispatch_front hf hk)

theorem takeFind_waits (h : s.lookup.busWaiting.length < 2) :
    takeFind r (popped rest s) =
      arbitrate { popped rest s with
        lookup.busWaiting := s.lookup.busWaiting ++ [readFind r.source r.payload] } := by
  rw [takeFind, if_pos (by exact h)]
  rfl

theorem takeFind_heldOff (h : 2 ≤ s.lookup.busWaiting.length) :
    takeFind r (popped rest s) =
      send r.source (.holdoff 0 1 s.phase.params.holdoffUnit) (count .holdoffs (popped rest s)) := by
  have hfull : ¬ (popped rest s).lookup.busWaiting.length < Config.busFinds := Nat.not_lt.2 h
  rw [takeFind, if_neg hfull]
  rfl

/-- A FIND with its content in order is read as its bytes stand. -/
theorem readFind_bytes {p : List Byte} (a : Nat) (h : ¬ ContentError .find p) :
    (readFind a p).cursor.val = (byteAt p 17).toNat := by
  have hcursor : (byteAt p 17).toNat < 160 := by
    have herror : ¬ 159 < (byteAt p 17).toNat := fun hc => h (.inr (.inr hc))
    omega
  exact Nat.mod_eq_of_lt hcursor

end Requests

/-- Settles O42: a LOOKUP's fields and start, a FIND's, and the arbiter's table. -/
theorem lookupAndFindStart : Obligations.LookupAndFindStart := by
  intro s
  refine ⟨fun f hs hf hl => ⟨readLookup_eq_none_iff, fun hq => ?_, fun q hq => readLookup_bytes hq⟩,
    fun f q hs hf hl hq hslot => ⟨fun hw hb => ?_, fun w hw => ?_⟩,
    fun r rest hfront hk => ⟨fun hc => ⟨rfl, rfl, rfl, rfl, readFind_bytes _ hc⟩, fun hw hb hslot => ?_,
      fun w hw hroom => ?_, fun hfull => ?_⟩,
    fun w hw => arbitrate_of_walking hw, fun hw => ⟨fun hb hh => arbitrate_of_none_waiting hw hb hh,
      fun q rest hb hh => arbitrate_bus hw hb hh, fun h hh hb => arbitrate_host hw hh hb⟩⟩
  · rw [exec_lookup hs hf hl, lookup_refused hq]
  · rw [exec_lookup hs hf hl, lookup_taken hq,
      arbitrate_host (s := inHand f .walk s { s with lookup.hostSlot := some q }) hw rfl (.inl hb)]
    simp [startHost, inHand, hslot]
  · rw [exec_lookup hs hf hl, lookup_taken hq,
      arbitrate_of_walking (s := inHand f .walk s { s with lookup.hostSlot := some q }) hw]
  · rw [exec_find hfront hk, takeFind_waits (by rw [hb]; decide), hb]
    refine congrArg Host.Outcome.next ((arbitrate_bus (rest := []) (by exact hw)
      (by rfl) (.inl (by exact hslot))).trans ?_)
    simp [startBus, popped, hb]
  · rw [exec_find hfront hk, takeFind_waits hroom]
    exact congrArg Host.Outcome.next (arbitrate_of_walking (w := w) (by exact hw))
  · rw [exec_find hfront hk, takeFind_heldOff hfull]

/-! ### The match conditions (R111, R114) -/

section Conditions

variable {e : Entry}

theorem live_iff : e.live = true ↔ e.state = .bound ∨ e.state = .lapsing := by
  rw [Entry.live, Bool.or_eq_true, beq_iff_eq, beq_iff_eq]

theorem leased_iff : e.leased = true ↔ e.origin = some .negotiated ∨ e.origin = some .adopted := by
  rw [Entry.leased, Bool.or_eq_true, beq_iff_eq, beq_iff_eq]

theorem not_present_iff {d : Dispute} : d.present = false ↔ d = ⟨false, false⟩ := by
  obtain ⟨a, b⟩ := d
  cases a <;> cases b <;> decide

theorem groupMatches_iff {g : Nat} :
    groupMatches g e = true ↔ g = 255 ∨ ∃ t, e.terms = some t ∧ g ∈ t.groups := by
  rw [groupMatches, Bool.or_eq_true, beq_iff_eq, Option.any_eq_true]
  simp only [List.contains_iff_mem]

/-- The origins that a FIND matches: every one but LEGACY. -/
theorem findable_origin_iff :
    (e.leased || e.origin == some .static) = true ↔ e.origin ≠ none ∧ e.origin ≠ some .legacy := by
  rw [Bool.or_eq_true, leased_iff, beq_iff_eq]
  cases e.origin with
  | none => decide
  | some o => cases o <;> decide

theorem findMatch_of {r : FindRequest} {x : Identity} {a : Nat} {t : Terms}
    (hlive : e.state = .bound ∨ e.state = .lapsing) (horigin : e.origin ≠ none)
    (hlegacy : e.origin ≠ some .legacy) (hdispute : e.dispute = ⟨false, false⟩)
    (hx : e.identity = some x) (ha : e.address = some a) (ht : e.terms = some t)
    (hmask : x &&& r.mask = r.pattern &&& r.mask)
    (hgroup : r.group = 255 ∨ ∃ t, e.terms = some t ∧ r.group ∈ t.groups) :
    findMatch r e = some ⟨x, a, t.cls, e.generation⟩ := by
  have hmatches : maskMatches r.pattern r.mask x = true := beq_iff_eq.2 hmask
  simp only [findMatch, hx, live_iff.2 hlive, findable_origin_iff.2 ⟨horigin, hlegacy⟩,
    not_present_iff.2 hdispute, hmatches, groupMatches_iff.2 hgroup, ha, ht]
  rfl

theorem findMatch_none {r : FindRequest}
    (h : ¬ (e.state = .bound ∨ e.state = .lapsing) ∨ e.identity = none ∨ e.dispute.present = true
      ∨ e.origin = some .legacy
      ∨ (∃ x, e.identity = some x ∧ x &&& r.mask ≠ r.pattern &&& r.mask)
      ∨ ¬ (r.group = 255 ∨ ∃ t, e.terms = some t ∧ r.group ∈ t.groups)) :
    findMatch r e = none := by
  cases hx : e.identity with
  | none => simp only [findMatch, hx]
  | some x =>
    simp only [findMatch, hx]
    refine if_neg fun hall => ?_
    simp only [Bool.and_eq_true, findable_origin_iff, live_iff, groupMatches_iff,
      Bool.not_eq_true', maskMatches, beq_iff_eq] at hall
    obtain ⟨⟨⟨⟨hlive, _, hlegacy⟩, hdispute⟩, hmask⟩, hgroup⟩ := hall
    rcases h with h | h | h | h | ⟨y, hy, h⟩ | h
    · exact h hlive
    · rw [hx] at h; cases h
    · rw [hdispute] at h; cases h
    · exact hlegacy h
    · rw [hx] at hy; cases hy; exact h hmask
    · exact h hgroup

theorem lookupIdentity_iff {r : LookupRequest} :
    lookupIdentity r e = true ↔
      (∀ x, e.identity = some x → x &&& r.mask = r.pattern &&& r.mask)
        ∧ (e.identity = none → r.mask = 0) := by
  cases hx : e.identity with
  | none => simp only [lookupIdentity, hx, beq_iff_eq]; simp
  | some x => simp only [lookupIdentity, hx, maskMatches, beq_iff_eq]; simp

theorem lookupStates_iff {b : Bool} :
    (if b then e.live else e.occupied) = true ↔
      (if b then e.state = .bound ∨ e.state = .lapsing else e.state ≠ .free) := by
  cases b with
  | true => exact live_iff
  | false => exact Entry.occupied_iff

theorem lookupDispute_iff {b : Bool} :
    (!(b && e.dispute.present)) = true ↔ (b = true → e.dispute = ⟨false, false⟩) := by
  rw [← not_present_iff]
  cases b <;> cases e.dispute.present <;> decide

end Conditions

/-! ### One examination (R110) -/

section Examination

variable {s : State} {i : Index}

theorem nextIndex_val (h : i.val < 159) : (nextIndex i).val = i.val + 1 :=
  Nat.mod_eq_of_lt (by omega)

theorem length_append_toList_le {α : Type} {n : Nat} {l : List α} (o : Option α)
    (h : l.length < n) : (l ++ o.toList).length ≤ n := by
  cases o <;> simp <;> omega

theorem exec_walkExamination_bus {r : FindRequest} {l : List FoundRecord}
    (h : s.lookup.walk = some (.bus r i l)) :
    exec .walkExamination s = .next (examineBus r i l s) := by
  simp only [exec, execWalkExamination, h]

theorem exec_walkExamination_host {r : LookupRequest} {l : List LookupRecord}
    (h : s.lookup.walk = some (.host r i l)) :
    exec .walkExamination s = .next (examineHost r i l s) := by
  simp only [exec, execWalkExamination, h]

end Examination

theorem originCode_lt (o : Option Origin) : originCode o < 5 := by
  cases o with
  | none => decide
  | some o => cases o <;> decide

theorem stateCode_lt (e : EntryState) : e.code < 5 := by
  cases e <;> decide

/-- A LOOKUP record's bytes are laid out as R186 says. -/
theorem lookupRecord_layout (q : LookupRecord) : LookupLayout q q.bytes := by
  obtain ⟨i0, i1, i2, i3, i4, i5, i6, i7, hi⟩ := exists_eight (identityBytes_length (q.identity.getD 0))
  obtain ⟨g0, g1, hg⟩ := exists_two (word16Bytes_length q.generation)
  have hstate := stateCode_lt q.state
  have horigin := originCode_lt q.origin
  have hsecond : (oneByte (q.state.code + 16 * originCode q.origin)).toNat
      = q.state.code + 16 * originCode q.origin := oneByte_toNat (by omega)
  simp only [LookupRecord.bytes, hi, hg, List.cons_append, List.nil_append]
  refine ⟨rfl, rfl, ?_, ?_, flags_bits _ _ _ false false false false false,
    identityAt_of_field hi.symm, rfl, word16At_of_field hg.symm⟩
  · show (oneByte (q.state.code + 16 * originCode q.origin)).toNat % 16 = _
    have hlow : (q.state.code + 16 * originCode q.origin) % 16 = q.state.code := by omega
    rw [hsecond, hlow]
    cases q.state <;> rfl
  · show (oneByte (q.state.code + 16 * originCode q.origin)).toNat / 16 = _
    have hhigh : (q.state.code + 16 * originCode q.origin) / 16 = originCode q.origin := by omega
    rw [hsecond, hhigh]
    cases q.origin with
    | none => rfl
    | some o => cases o <;> rfl

/-- Settles O43: a FIND's examination, the LOOKUP record's layout, and a LOOKUP's examination. -/
theorem walkExaminesOneEntry : Obligations.WalkExaminesOneEntry := by
  intro s i
  refine ⟨fun r l hw hl => ⟨l ++ (findMatch r (entry s i)).toList,
      fun x a t hlive ho hleg hd hx ha ht hm hg => ?_, fun h => ?_, length_append_toList_le _ hl,
      fun hshort hi => ⟨nextIndex i, nextIndex_val hi, ?_⟩, fun hend => ?_⟩,
    lookupRecord_layout,
    fun r l c hw hl hc => ⟨l ++ (lookupMatch r i (entry s i)).toList, fun hp => ?_, fun hp => ?_,
      fun hshort hi => ⟨nextIndex i, nextIndex_val hi, ?_⟩, fun hend => ?_⟩⟩
  · rw [findMatch_of hlive ho hleg hd hx ha ht hm hg]
    rfl
  · rw [findMatch_none h, Option.toList_none, List.append_nil]
  · have hgoes : ¬ ((l ++ (findMatch r (entry s i)).toList).length = findLimit ∨ i.val = 159) := by
      rw [findLimit]; omega
    rw [exec_walkExamination_bus hw]
    simp only [examineBus, if_neg hgoes]
  · have hends : (l ++ (findMatch r (entry s i)).toList).length = findLimit ∨ i.val = 159 := hend
    rw [exec_walkExamination_bus hw]
    simp only [examineBus, if_pos hends, cursorAfter]
  · obtain ⟨hstate, hdispute, hmask, hzero, hgroup⟩ := hp
    have hmatch : lookupMatch r i (entry s i) = some ⟨i, (entry s i).state, (entry s i).origin,
        (entry s i).identity, orZero (entry s i).address, (entry s i).generation,
        (entry s i).dispute⟩ := by
      refine if_pos ?_
      simp only [Bool.and_eq_true]
      exact ⟨⟨⟨lookupStates_iff.2 hstate, lookupDispute_iff.2 hdispute⟩,
        lookupIdentity_iff.2 ⟨hmask, hzero⟩⟩, groupMatches_iff.2 hgroup⟩
    rw [hmatch]
    rfl
  · have hmatch : lookupMatch r i (entry s i) = none := by
      refine if_neg fun hall => hp ?_
      simp only [Bool.and_eq_true] at hall
      obtain ⟨⟨⟨hstate, hdispute⟩, hidentity⟩, hgroup⟩ := hall
      obtain ⟨hmask, hzero⟩ := lookupIdentity_iff.1 hidentity
      exact ⟨lookupStates_iff.1 hstate, lookupDispute_iff.1 hdispute, hmask, hzero,
        groupMatches_iff.1 hgroup⟩
    rw [hmatch, Option.toList_none, List.append_nil]
  · have hgoes : ¬ ((l ++ (lookupMatch r i (entry s i)).toList).length = lookupLimit
        ∨ i.val = 159) := by
      rw [lookupLimit]; omega
    rw [exec_walkExamination_host hw]
    simp only [examineHost, if_neg hgoes]
  · have hends : (l ++ (lookupMatch r i (entry s i)).toList).length = lookupLimit
        ∨ i.val = 159 := hend
    rw [exec_walkExamination_host hw]
    simp only [examineHost, if_pos hends, cursorAfter, lookupData_eq_flatMap]
    rw [finish_executing (s := { s with lookup.walk := none }) _ _ hc]

end Sys2Proof.Machine
end

section
/-! The answer queue takes a message, and the transmitter waits for the gap (spec/07.3, spec/07.4). -/

namespace Sys2Proof.Machine

-- One lemma is elaborated after another, which keeps the check's memory low.
set_option Elab.async false

/-! ### Completion reports to one waiter (R131) -/

section Reports

variable {s : State} {o : NoticeOutcome}

/-- A context that awaits the message as its CHECK starts its probe timer (R95). -/
theorem reportAll_check {c : CtxNum} {k n : Nat} {x : Exchange} (hx : context s c = some x)
    (hs : x.stage = .checking n (.awaiting k)) :
    reportAll o [.context c k] s =
      { s with
        join.contexts := s.join.contexts.set c
          (some { x with
            stage := .checking n (.running (s.now + s.phase.params.probeTimeout * 10000)) }) } := by
  have hctx : s.join.contexts[c] = some x := hx
  show reportTo o (.context c k) s = _
  simp only [reportTo, hctx, hs, if_true]
  rfl

/-- A command that waits for its notice completes with the notice's outcome (R164). -/
theorem reportAll_notice {c : CommandRecord} {i : Index} {g : Word16}
    (hc : s.host.engine = .executing c) (hw : c.work = .notice i g) :
    reportAll o [.engine] s =
      { s with host.engine := .done ⟨c.tag, .ok, noticeData i g o⟩ } := by
  show reportTo o .engine s = _
  simp only [reportTo, hc, hw]
  exact finish_executing _ _ hc

end Reports

/-! ### The gap (R128) -/

section Gap

variable {s : State}

theorem gapOver_iff : gapOver s = true ↔ GapOver s := by
  rw [gapOver, Bool.and_eq_true, Bool.not_eq_true', decide_eq_true_iff]
  rfl

theorem takeUp_of_gapOver (h : GapOver s) :
    takeUp s = { s with port.tx := .sending s.now, port.overlapped := false } :=
  if_pos (gapOver_iff.2 h)

theorem takeUp_of_not_gapOver (h : ¬ GapOver s) : takeUp s = { s with port.tx := .deferring none } :=
  if_neg fun hg => h (gapOver_iff.1 hg)

end Gap

/-! ### Handing over (R125, R126) -/

section Queue

variable {s : State} {d : Nat} {a : Answer} {ws : List Waiter} {h : QueuedMessage}
  {rest : List QueuedMessage}

/-- The first identical message takes the new one's waiters. -/
theorem mergeInto_first {before after : List QueuedMessage} {q : QueuedMessage}
    (hb : ∀ b ∈ before, ¬ (b.destination = d ∧ b.answer = a)) (hq : q.destination = d ∧ q.answer = a) :
    mergeInto d a ws (before ++ q :: after) =
      some (before ++ { q with waiters := q.waiters ++ ws } :: after) := by
  induction before with
  | nil => rw [List.nil_append, mergeInto, if_pos hq, List.nil_append]
  | cons b before ih =>
    rw [List.cons_append, mergeInto, if_neg (hb b List.mem_cons_self),
      ih fun c hc => hb c (List.mem_cons_of_mem b hc)]
    rfl

theorem handOver_offline (hp : s.phase.phase = .offline) :
    handOver d a ws s = reportAll .dropped ws s := if_pos hp

theorem handOver_empty (hp : s.phase.phase ≠ .offline) (hq : s.port.queue = []) :
    handOver d a ws s = takeUp { s with port.queue := [⟨d, a, s.now, 0, ws⟩] } := by
  rw [handOver, if_neg hp, hq]
  rfl

theorem handOver_merged {waiting : List QueuedMessage} (hp : s.phase.phase ≠ .offline)
    (hq : s.port.queue = h :: rest) (hm : mergeInto d a ws rest = some waiting) :
    handOver d a ws s = { s with port.queue := h :: waiting } := by
  simp only [handOver, if_neg hp, hq, hm]

theorem handOver_full (hp : s.phase.phase ≠ .offline) (hq : s.port.queue = h :: rest)
    (hm : ∀ b ∈ rest, ¬ (b.destination = d ∧ b.answer = a)) (hl : rest.length = 15) :
    handOver d a ws s = reportAll .dropped ws (setPart partQueueDrop (count .answerDrops s)) := by
  have hfull : Config.queueMessages ≤ rest.length + 1 := by rw [hl]; decide
  simp only [handOver, if_neg hp, hq, mergeInto_none.2 hm, if_pos hfull]

theorem handOver_back (hp : s.phase.phase ≠ .offline) (hq : s.port.queue = h :: rest)
    (hm : ∀ b ∈ rest, ¬ (b.destination = d ∧ b.answer = a)) (hl : rest.length < 15) :
    handOver d a ws s = { s with port.queue := h :: rest ++ [⟨d, a, s.now, 0, ws⟩] } := by
  have hroom : ¬ Config.queueMessages ≤ rest.length + 1 := by
    rw [Config.queueMessages]; omega
  simp only [handOver, if_neg hp, hq, mergeInto_none.2 hm, if_neg hroom]
  rfl

end Queue

/-- Settles O57: OFFLINE, the empty queue, a merge, a full queue, and a queue with room. -/
theorem answerQueueTakesMessage : Obligations.AnswerQueueTakesMessage := by
  intro s d a ws
  refine ⟨handOver_offline, fun hp hq => ⟨fun hg => ?_, fun hg => ?_⟩,
    fun h before q after hp hq hb hsame => handOver_merged hp hq (mergeInto_first hb hsame),
    fun h rest hp hq hm => ⟨handOver_full hp hq hm, fun c k x n hl hws hx hs => ?_,
      handOver_back hp hq hm⟩⟩
  · rw [handOver_empty hp hq]
    exact takeUp_of_gapOver hg
  · rw [handOver_empty hp hq]
    exact takeUp_of_not_gapOver hg
  · have hctx : context (setPart partQueueDrop (count .answerDrops s)) c = some x := by
      simpa [context] using hx
    rw [handOver_full hp hq hm hl, hws, reportAll_check hctx hs]
    simp only [setPart_join, setPart_now, setPart_phase, count_join, count_now, count_phase]

/-! ### Waiting for the gap (R128) -/

section Waiting

variable {s : State}

theorem exec_attemptBegin_quiet (htx : s.port.tx = .deferring none) (hc : s.port.carrier = false) :
    exec .attemptBegin s = .next (beginAt (gapEnds s) s) := by
  simp [exec, execAttemptBegin, htx, hc]

theorem exec_attemptBegin_deferred (htx : s.port.tx = .deferring none) (hc : s.port.carrier = true) :
    exec .attemptBegin s = .next s := by
  simp [exec, execAttemptBegin, htx, hc]

theorem exec_attemptBegin_due {t : Nat} (htx : s.port.tx = .deferring (some t)) :
    exec .attemptBegin s = .next (beginAt t s) := by
  simp [exec, execAttemptBegin, htx]

theorem exec_carrierRise_present (hc : s.port.carrier = true) : exec .carrierRise s = .next s := by
  simp [exec, execCarrierRise, hc]

/-- A rise of carrier outside DEFERRING raises carrier, and overlaps an attempt under way. -/
theorem exec_carrierRise_elsewhere (hc : s.port.carrier = false) (htx : s.port.tx ≠ .deferring none) :
    exec .carrierRise s = .next (carrierRises s) := by
  have hfree : ¬ s.port.carrier = true := by rw [hc]; decide
  simp only [exec, execCarrierRise, if_neg hfree]
  cases h : s.port.tx with
  | deferring t =>
    cases t with
    | none => exact absurd h htx
    | some t => rfl
  | idle => rfl
  | sending t => rfl
  | jamming t => rfl
  | backingOff t => rfl

theorem exec_carrierRise_early (hc : s.port.carrier = false) (htx : s.port.tx = .deferring none)
    (h : quietBits s < 36) : exec .carrierRise s = .next (carrierRises s) := by
  have hfree : ¬ s.port.carrier = true := by rw [hc]; decide
  have hearly : quietBits s < Config.commitBits := h
  simp only [exec, execCarrierRise, if_neg hfree, htx, if_pos hearly]

theorem exec_carrierRise_late (hc : s.port.carrier = false) (htx : s.port.tx = .deferring none)
    (h : 36 ≤ quietBits s) :
    exec .carrierRise s =
      .next { carrierRises s with port.tx := .deferring (some (gapEnds s)) } := by
  have hfree : ¬ s.port.carrier = true := by rw [hc]; decide
  have hlate : ¬ quietBits s < Config.commitBits := Nat.not_lt.2 h
  simp only [exec, execCarrierRise, if_neg hfree, htx, if_neg hlate]

theorem carrierRises_outside (h : attemptUnderWay s = false) :
    carrierRises s = { s with port.carrier := true, port.overlapped := false } := by
  rw [carrierRises, h]

theorem exec_backoffEnd {t : Nat} (htx : s.port.tx = .backingOff t) :
    exec .backoffEnd s = .next (takeUp (advanceTo t s)) := by
  simp [exec, execBackoffEnd, htx]

/-- A late rise is ignored: the attempt begins when the quiet time would have reached the gap. -/
theorem late_rise_ignored (hc : s.port.carrier = false) (htx : s.port.tx = .deferring none)
    (h : 36 ≤ quietBits s) :
    ∃ t, exec .carrierRise s = .next t
      ∧ t = { s with
          port.carrier := true, port.overlapped := false, port.tx := .deferring (some (gapEnds s)) }
      ∧ exec .attemptBegin t =
          .next { t with
            now := max s.now (gapEnds s), port.tx := .sending (max s.now (gapEnds s)),
            port.overlapped := true } := by
  have hattempt : attemptUnderWay s = false := by rw [attemptUnderWay, htx]
  refine ⟨_, exec_carrierRise_late hc htx h, ?_, ?_⟩
  · rw [carrierRises_outside hattempt]
  · rw [exec_attemptBegin_due (t := gapEnds s) rfl]
    rfl

end Waiting

/-- Settles O58: the beginning of an attempt, the rises of carrier by the transmitter's state and the
quiet time, and the end of a backoff. -/
theorem attemptWaitsForGap : Obligations.AttemptWaitsForGap := by
  intro s
  refine ⟨fun htx hc => ?_, exec_attemptBegin_deferred, exec_carrierRise_present, fun hc hu => ?_,
    fun hc hu htx => ?_, fun htx hc => ⟨fun h => ?_, fun h _ => late_rise_ignored hc htx h,
      fun h => late_rise_ignored hc htx (Nat.le_trans (by decide) h)⟩,
    fun d htx => ⟨fun hg => ?_, fun hg => ?_⟩⟩
  · rw [exec_attemptBegin_quiet htx hc, ← hc]
    rfl
  · rw [exec_carrierRise_elsewhere hc (fun h => by simp [attemptUnderWay, h] at hu), carrierRises, hu]
  · rw [exec_carrierRise_elsewhere hc htx, carrierRises_outside (Bool.not_eq_true _ ▸ hu)]
  · rw [exec_carrierRise_early hc htx h, carrierRises_outside (by rw [attemptUnderWay, htx])]
  · rw [exec_backoffEnd htx]
    exact congrArg Host.Outcome.next (takeUp_of_gapOver hg)
  · rw [exec_backoffEnd htx]
    exact congrArg Host.Outcome.next (takeUp_of_not_gapOver hg)

end Sys2Proof.Machine
end

section
/-! The end of an attempt: SENT, the jam of a collision and the backoff, and a survived teardown
(spec/07.4, spec/07.8). -/

namespace Sys2Proof.Machine

-- One lemma is elaborated after another, which keeps the check's memory low.
set_option Elab.async false

/-! ### What an attempt's end leaves -/

section Ends

variable {s : State} {time : Nat} {q rest : List QueuedMessage} {tx : Transmitter}

/-- The part's own carrier falls at the attempt's end. -/
theorem ownCarrierFalls_advanceTo (t : Nat) (s : State) :
    ownCarrierFalls (advanceTo t s) = attemptOver (max s.now t) s.port.queue s.port.tx s := by
  rw [ownCarrierFalls]
  by_cases hc : s.port.carrier = true
  · rw [if_pos (by exact hc), attemptOver, if_pos hc, if_pos hc]
    rfl
  · rw [if_neg (by exact hc), attemptOver, if_neg hc, if_neg hc]
    rfl

/-- With the part's own carrier just fallen, or another's present, the gap is still to run. -/
def NotYetQuiet (u : State) : Prop :=
  u.port.carrier = true ∨ (u.port.quietFrom = u.now ∧ u.port.quietCarried = 0)

theorem attemptOver_notYetQuiet : NotYetQuiet (attemptOver time q tx s) := by
  cases hc : s.port.carrier with
  | true => exact .inl hc
  | false => exact .inr (by simp [attemptOver, hc])

theorem takeUp_notYetQuiet {u : State} (h : NotYetQuiet u) :
    takeUp u = { u with port.tx := .deferring none } := by
  obtain hc | ⟨hf, hcarried⟩ := h
  · exact takeUp_of_not_gapOver fun hg => by rw [hg.1] at hc; cases hc
  · exact takeUp_quiet_new hf hcarried

/-- Where nothing is over its lifetime, the next message becomes the head and is deferred for. -/
theorem promote_turnsTo {u : State} (h : TurnsTo s time rest q tx) (hu : NotYetQuiet u)
    (hn : u.now = time) (hp : u.phase = s.phase) :
    promote rest u = { u with port.queue := q, port.tx := tx } := by
  obtain ⟨rfl, rfl, rfl⟩ | ⟨n, r, rfl, hage, rfl, rfl⟩ := h
  · rfl
  · have hyoung : ¬ u.phase.params.answerLifetime * Config.unit10ms < u.now - n.produced := by
      rw [hp, hn]
      exact Nat.not_lt.2 hage
    rw [promote, if_neg hyoung, takeUp_notYetQuiet (u := { u with port.queue := n :: r }) hu]

/-- A message over its lifetime is dropped and counted as it becomes the head (R127). -/
theorem promote_aged {u : State} {n : QueuedMessage} {r : List QueuedMessage}
    (h : s.phase.params.answerLifetime * 10000 < time - n.produced) (hn : u.now = time)
    (hp : u.phase = s.phase) :
    promote (n :: r) u = promote r (reportAll .dropped n.waiters (count .answerDrops u)) := by
  have hold : u.phase.params.answerLifetime * Config.unit10ms < u.now - n.produced := by
    rw [hp, hn]
    exact h
  rw [promote, if_pos hold]

/-- Counting changes the change unit alone, as that unit stands. -/
theorem count_of_change {k : Counter} {t : State} (h : t.change = s.change) :
    count k t = { t with change := (count k s).change } := by
  rw [count_eq, count_change_congr k h]

theorem endAttempt_of_not {t : State} (h : t.port.surviving = false) : endAttempt t = t :=
  if_neg (by rw [h]; decide)

/-- The end of an attempt that survived a teardown completes that command (R134, R164). -/
theorem endSurvival_completes {t : State} {c : CommandRecord} (hc : t.host.engine = .executing c)
    (hw : c.work = .attemptEnd) :
    endSurvival t =
      { t with
        port.surviving := false, host.engine := .done ⟨c.tag, .ok, tearDownData c t⟩ } := by
  simp only [endSurvival, hc, hw]
  exact finish_executing (s := { t with port.surviving := false }) _ _ hc

theorem tearDownData_disable {c : CommandRecord} (hc : c.code = 0x04)
    (hp : s.phase.phase = .offline) : tearDownData c s = [0] := by
  rw [tearDownData, if_pos hc, phaseData, hp]
  rfl

theorem tearDownData_portRestart {c : CommandRecord} (hc : c.code = 0x17) : tearDownData c s = [] := by
  rw [tearDownData, if_neg (by rw [hc]; decide)]

end Ends

/-! ### The events -/

section Events

variable {s : State} {m : QueuedMessage} {rest : List QueuedMessage}

theorem frameBits_eq (d : Nat) (a : Answer) : frameBits d a = 8 * (6 + a.payload.length) := by
  rw [frameBits, frameBytes_length, Nat.add_comm]

/-- The head leaves an attempt that is over. -/
theorem exec_attemptSent {b : Nat} (htx : s.port.tx = .sending b) (hq : s.port.queue = m :: rest) :
    exec .attemptSent s =
      .next (endAttempt (promote rest (reportAll .sent m.waiters
        (attemptOver (max s.now (b + 8 * (6 + m.answer.payload.length)
          * (1000 / s.phase.params.busRate))) rest s.port.tx s)))) := by
  simp only [exec, execAttemptSent, htx, hq, headLeaves, ownCarrierFalls_advanceTo, frameBits_eq]
  rfl

theorem exec_collisionSignal {b : Nat} (htx : s.port.tx = .sending b)
    (hq : s.port.queue = m :: rest) :
    exec .collisionSignal s =
      .next { s with
        port.queue := { m with collisions := m.collisions + 1 } :: rest
        port.tx := .jamming (s.now + 16 * (1000 / s.phase.params.busRate)) } := by
  simp only [exec, execCollisionSignal, htx, hq]
  rfl

theorem exec_collisionSignal_outside (htx : ∀ b, s.port.tx ≠ .sending b) :
    exec .collisionSignal s = .next s := by
  simp only [exec, execCollisionSignal]
  split
  case h_1 b m rest h hq => exact absurd h (htx b)
  case h_2 => rfl

theorem exec_jamEnd {d : Nat} (htx : s.port.tx = .jamming d) (hq : s.port.queue = m :: rest) :
    exec .jamEnd s =
      .next (jamEnds m rest (attemptOver (max s.now d) s.port.queue s.port.tx s)) := by
  have hfalls := ownCarrierFalls_advanceTo d s
  simp only [exec, execJamEnd, htx, hq] at hfalls ⊢
  rw [hfalls]

/-- The jam of an attempt that survived a teardown removes the head without counting it. -/
theorem jamEnds_surviving {l : List QueuedMessage} {tx : Transmitter} {time : Nat}
    (h : s.port.surviving = true) :
    jamEnds m rest (attemptOver time l tx s) =
      endSurvival (promote rest (reportAll .dropped m.waiters (attemptOver time rest tx s))) :=
  if_pos h

/-- The twelfth collision drops the head, which is counted. -/
theorem jamEnds_twelfth {l : List QueuedMessage} {tx : Transmitter} {time : Nat}
    (h : s.port.surviving = false) (hm : 12 ≤ m.collisions) :
    jamEnds m rest (attemptOver time l tx s) =
      promote rest (reportAll .dropped m.waiters
        { attemptOver time rest tx s with change := (count .answerDrops s).change }) := by
  have hnone : ¬ (attemptOver time l tx s).port.surviving = true := by
    show ¬ s.port.surviving = true
    rw [h]; decide
  have hlimit : Config.attemptLimit ≤ m.collisions := hm
  rw [jamEnds, if_neg hnone, if_pos hlimit, headLeaves,
    count_of_change (s := s) (t := attemptOver time l tx s) rfl]
  rfl

/-- Fewer collisions make the transmitter back off by a free number of slots. -/
theorem jamEnds_backsOff {l : List QueuedMessage} {tx : Transmitter} {time : Nat}
    (h : s.port.surviving = false) (hm : m.collisions < 12) :
    jamEnds m rest (attemptOver time l tx s) =
      { attemptOver time l
          (if backoffDraw m.collisions s = 0 then .deferring none
            else .backingOff
              (time + backoffDraw m.collisions s * 256 * (1000 / s.phase.params.busRate))) s with
        freeUsed := s.freeUsed + 1 } := by
  have hnone : ¬ (attemptOver time l tx s).port.surviving = true := by
    show ¬ s.port.surviving = true
    rw [h]; decide
  have hlimit : ¬ Config.attemptLimit ≤ m.collisions := Nat.not_le.2 hm
  have hdraw : backoffDraw m.collisions (attemptOver time l tx s) = backoffDraw m.collisions s := rfl
  simp only [jamEnds, if_neg hnone, if_neg hlimit, backOff, hdraw]
  split
  · exact takeUp_notYetQuiet
      (u := { attemptOver time l tx s with freeUsed := s.freeUsed + 1 }) attemptOver_notYetQuiet
  · rfl

end Events

/-! ### A message that leaves, and what its waiters are told -/

section Leaving

variable {s : State} {o : NoticeOutcome} {time : Nat} {l₀ l q : List QueuedMessage}
  {tx₀ tx : Transmitter} (u : ChangeUnit)

theorem leaves_unawaited (ht : TurnsTo s time l q tx) :
    promote l (reportAll o [] { attemptOver time l₀ tx₀ s with change := u }) =
      { attemptOver time q tx s with change := u } :=
  promote_turnsTo (u := { attemptOver time l₀ tx₀ s with change := u }) ht attemptOver_notYetQuiet
    rfl rfl

theorem leaves_notice {c : CommandRecord} {i : Index} {g : Word16} (ht : TurnsTo s time l q tx)
    (hc : s.host.engine = .executing c) (hw : c.work = .notice i g) :
    promote l (reportAll o [.engine] { attemptOver time l₀ tx₀ s with change := u }) =
      { attemptOver time q tx s with
        change := u, host.engine := .done ⟨c.tag, .ok, noticeData i g o⟩ } := by
  rw [reportAll_notice (s := { attemptOver time l₀ tx₀ s with change := u }) hc hw]
  exact promote_turnsTo ht attemptOver_notYetQuiet rfl rfl

theorem leaves_check {c : CtxNum} {k n : Nat} {x : Exchange} (ht : TurnsTo s time l q tx)
    (hx : context s c = some x) (hs : x.stage = .checking n (.awaiting k)) :
    promote l (reportAll o [.context c k] { attemptOver time l₀ tx₀ s with change := u }) =
      { attemptOver time q tx s with
        change := u
        join.contexts := s.join.contexts.set c
          (some { x with
            stage := .checking n (.running (time + s.phase.params.probeTimeout * 10000)) }) } := by
  rw [reportAll_check (s := { attemptOver time l₀ tx₀ s with change := u }) hx hs]
  exact promote_turnsTo ht attemptOver_notYetQuiet rfl rfl

end Leaving

/-- Settles O59: the head's waiters, then a next message over its lifetime, then a survived teardown. -/
theorem attemptSentRemovesHead : Obligations.AttemptSentRemovesHead := by
  intro s b m rest htx hq
  refine ⟨fun hs => ⟨fun q tx ht => ⟨fun hw => ?_, fun c i g hw hc hn => ?_, fun c k x n hw hx hst => ?_⟩,
    fun n r q tx hr hage ht hm => ?_⟩, fun q tx c hs ht hw hc hn => ?_⟩
  · rw [exec_attemptSent htx hq, hw]
    exact congrArg Host.Outcome.next
      ((congrArg endAttempt (leaves_unawaited s.change ht)).trans (endAttempt_of_not hs))
  · rw [exec_attemptSent htx hq, hw]
    exact congrArg Host.Outcome.next
      ((congrArg endAttempt (leaves_notice s.change ht hc hn)).trans (endAttempt_of_not hs))
  · rw [exec_attemptSent htx hq, hw]
    exact congrArg Host.Outcome.next
      ((congrArg endAttempt (leaves_check s.change ht hx hst)).trans (endAttempt_of_not hs))
  · rw [exec_attemptSent htx hq, hm, hr, reportAll, List.foldl_nil,
      promote_aged (s := s) (u := attemptOver _ (n :: r) s.port.tx s) hage rfl rfl,
      count_of_change (s := s) (t := attemptOver _ (n :: r) s.port.tx s) rfl]
    refine ⟨fun hw => ?_, fun c i g hw hc hn => ?_, fun c k x p hw hx hst => ?_⟩
    · rw [hw, count_of_change (s := s) (t := attemptOver _ q tx s) rfl]
      exact congrArg Host.Outcome.next
        ((congrArg endAttempt (leaves_unawaited _ ht)).trans (endAttempt_of_not hs))
    · rw [hw, count_of_change (s := s) (t := attemptOver _ q tx s) rfl]
      exact congrArg Host.Outcome.next
        ((congrArg endAttempt (leaves_notice _ ht hc hn)).trans (endAttempt_of_not hs))
    · rw [hw, count_of_change (s := s) (t := attemptOver _ q tx s) rfl]
      exact congrArg Host.Outcome.next
        ((congrArg endAttempt (leaves_check _ ht hx hst)).trans (endAttempt_of_not hs))
  · have hleft := leaves_unawaited (o := .sent) (l₀ := rest) (tx₀ := s.port.tx) s.change ht
    have hends : exec .attemptSent s =
        .next (endSurvival (attemptOver (max s.now (b + 8 * (6 + m.answer.payload.length)
          * (1000 / s.phase.params.busRate))) q tx s)) := by
      rw [exec_attemptSent htx hq, hw]
      exact congrArg Host.Outcome.next ((congrArg endAttempt hleft).trans (if_pos hs))
    rw [hends, endSurvival_completes (t := attemptOver _ q tx s) hc hn]
    refine ⟨fun hd hp => ?_, fun hd => ?_⟩
    · rw [tearDownData_disable hd (by exact hp)]
    · rw [tearDownData_portRestart hd]

/-- Settles O60: the signal, then the jam's end by the collisions met and by the waiters, and the jam of a
surviving attempt. -/
theorem collisionJamsAndBacksOff : Obligations.CollisionJamsAndBacksOff := by
  intro s m rest hq
  refine ⟨fun b htx => exec_collisionSignal htx hq, exec_collisionSignal_outside, fun d htx =>
    ⟨fun hs hm => ⟨backoffDraw m.collisions s, Nat.mod_lt _ (by positivity), ?_⟩,
    fun q tx ht hw hs hm c i g hc hn => ?_, fun q tx ht hs hm c k x n hw hx hst => ?_,
    fun q tx ht hw => ⟨fun hs hm => ?_, fun c hs hc hn => ?_⟩⟩⟩
  · rw [exec_jamEnd htx hq, jamEnds_backsOff hs hm]
  · rw [exec_jamEnd htx hq, jamEnds_twelfth hs hm, hw,
      count_of_change (s := s) (t := attemptOver _ q tx s) rfl, leaves_notice _ ht hc hn]
    rfl
  · rw [exec_jamEnd htx hq, jamEnds_twelfth hs hm, hw,
      count_of_change (s := s) (t := attemptOver _ q tx s) rfl, leaves_check _ ht hx hst]
  · rw [exec_jamEnd htx hq, jamEnds_twelfth hs hm, hw,
      count_of_change (s := s) (t := attemptOver _ q tx s) rfl, leaves_unawaited _ ht]
  · have hleft := leaves_unawaited (o := .dropped) (l₀ := rest) (tx₀ := s.port.tx) s.change ht
    have hends : exec .jamEnd s = .next (endSurvival (attemptOver (max s.now d) q tx s)) := by
      rw [exec_jamEnd htx hq, jamEnds_surviving hs, hw]
      exact congrArg (fun t => Host.Outcome.next (endSurvival t)) hleft
    rw [hends, endSurvival_completes (t := attemptOver (max s.now d) q tx s) hc hn]
    refine ⟨fun hd hp => ?_, fun hd => ?_⟩
    · rw [tearDownData_disable hd (by exact hp)]
    · rw [tearDownData_portRestart hd]

end Sys2Proof.Machine
end

section
/-! What is heard on the line: discarded, reported, classified (spec/05.1, spec/07.1, spec/07.2). -/

namespace Sys2Proof.Machine

-- One lemma is elaborated after another, which keeps the check's memory low.
set_option Elab.async false

/-! ### Requests and their content (R122, R185) -/

theorem requestOfCode_requestCode (k : ReqKind) : requestOfCode (requestCode k) = some k := by
  cases k <;> rfl

theorem requestOfCode_answer {n : Nat} (h : 8 ≤ n) : requestOfCode n = none := by
  rw [requestOfCode] <;> omega

/-- The codes 1 to 7 are those of requests. -/
theorem requestOfCode_request {n : Nat} (h1 : 1 ≤ n) (h7 : n ≤ 7) :
    ∃ k, requestOfCode n = some k := by
  interval_cases n <;> exact ⟨_, rfl⟩

theorem requestOfCode_eq_some {n : Nat} {k : ReqKind} (h : requestOfCode n = some k) :
    requestCode k = n := by
  unfold requestOfCode at h
  split at h <;> cases h <;> rfl

theorem keepContentOk_iff {p : List Byte} : keepContentOk p = true ↔ ¬ ContentError .keep p := by
  simp only [keepContentOk, ContentError, Bool.and_eq_true, decide_eq_true_iff, beq_iff_eq,
    groupsValid_bytes]
  constructor
  · rintro ⟨⟨⟨⟨⟨hn, hl⟩, hc⟩, h1, h64⟩, hlease⟩, hg, hd⟩
    rintro (h | h | h | h | h | h | ⟨g, hm, h⟩ | h)
    · omega
    · exact h hl
    · omega
    · omega
    · omega
    · omega
    · exact absurd (hg g hm) (by omega)
    · exact h hd
  · intro h
    simp only [not_or, not_exists, not_and, not_lt, not_not] at h
    obtain ⟨hn, hl, hc, h1, h64, hlease, hg, hd⟩ := h
    exact ⟨⟨⟨⟨⟨hn, hl⟩, hc⟩, Nat.pos_of_ne_zero h1, h64⟩, hlease⟩, hg, hd⟩

theorem findContentOk_iff {p : List Byte} : findContentOk p = true ↔ ¬ ContentError .find p := by
  simp only [findContentOk, ContentError, Bool.and_eq_true, decide_eq_true_iff, beq_iff_eq,
    groupByteOk_iff (BitVec.isLt (byteAt p 16)), not_or, not_not, not_lt, and_assoc]

theorem contentOk_iff {k : ReqKind} {p : List Byte} : contentOk k p = true ↔ ¬ ContentError k p := by
  cases k with
  | keep => exact keepContentOk_iff
  | find => exact findContentOk_iff
  | leave => simp only [contentOk, ContentError, beq_iff_eq, not_not]
  | reply => simp only [contentOk, ContentError, beq_iff_eq, not_not]
  | join => exact iff_of_true rfl id
  | extend => exact iff_of_true rfl id
  | agree => exact iff_of_true rfl id

theorem malformedIdentity_eq (k : ReqKind) (p : List Byte) :
    malformedIdentity k p = if k ≠ .find ∧ 8 ≤ p.length then identityAt p 0 else 0 := by
  cases k with
  | find => rw [if_neg fun h => h.1 rfl]; rfl
  | _ => simp [malformedIdentity, payloadIdentity]

/-! ### The report leaves the inbound buffer -/

section Buffer

variable (s : State)

theorem learn_port (a : Nat) : (learn a s).port = s.port := by
  unfold learn
  split
  · exact setPart_port _ s
  · exact changeEntry_port _ _ _ s

theorem learnIfOn_port (a : Nat) : (learnIfOn a s).port = s.port := by
  unfold learnIfOn
  split
  · exact learn_port s a
  · rfl

theorem closeUnasked_inbound (c : CtxNum) (r : Reason) :
    (closeUnasked c r s).port.inbound = s.port.inbound := by
  rw [closeUnasked, closeRefused]
  split
  · rfl
  · rw [refuse, send_inbound, count_port, closeContext_port]

theorem reportLive_port (i : Index) : (reportLive i s).port = s.port := by
  simp only [reportLive]
  split
  · exact changeEntry_port _ _ _ s
  · split
    · exact addCollision_port i s
    · rfl
  · exact addCollision_port i s
  · exact addCollision_port i s
  · rfl

theorem reportReserved_inbound (i : Index) (a : Nat) :
    (reportReserved i a s).port.inbound = s.port.inbound := by
  rw [reportReserved, learnIfOn_port]
  split
  · exact closeUnasked_inbound s _ _
  · obtain ⟨_, hw⟩ | ⟨_, hw⟩ := withdraw_cases i s
    · rw [hw, freeEntry_port]
    · rw [hw]

theorem reportHeld_port (i : Index) (a : Nat) : (reportHeld i a s).port = s.port := by
  unfold reportHeld
  split
  · rw [learn_port, freeEntry_port]
  · rfl

theorem observe_inbound (source : Nat) (bound : Bool) :
    (observe source bound s).port.inbound = s.port.inbound := by
  unfold observe reportSet reportClear
  split
  · split
    · split
      · rfl
      · split
        · rw [count_port]
        · split
          · rw [count_port]
          · rfl
    · split
      · rw [learnIfOn_port]
      · split
        · rfl
        · exact reportReserved_inbound s _ _
        · rw [reportLive_port]
        · rw [reportLive_port]
        · rw [reportHeld_port]
  · rfl

end Buffer

/-! ### A valid message (R121) -/

section Valid

variable {s t : State} {m : Heard} {bytes : List Byte} {extra : Nat}

/-- Traffic from a source that no station has is not reported (R85). -/
theorem observe_outside {a : Nat} {b : Bool} (h : a = 0 ∨ 239 < a) : observe a b s = s :=
  if_neg fun ⟨h1, h2⟩ => by rw [Config.maxAddress] at h2; omega

theorem classify_stray (h : m.source = 0 ∨ 8 ≤ m.kind) : classify m s = count .strays s := by
  rw [classify]
  split
  · rfl
  case isFalse hs =>
    rw [requestOfCode_answer (h.resolve_left hs)]

theorem classify_elsewhere {k : ReqKind} (hs : m.source ≠ 0) (hk : requestOfCode m.kind = some k)
    (hd : m.destination ≠ 0) : classify m s = s := by
  have hsource : ¬ m.source = Config.directory := hs
  have hother : ¬ m.destination = Config.directory := hd
  simp only [classify, if_neg hsource, hk, if_neg hother]

theorem classify_directory {k : ReqKind} (hs : m.source ≠ 0) (hk : requestOfCode m.kind = some k)
    (hd : m.destination = 0) :
    classify m s = takeRequest ⟨m.source, m.bound, k, m.payload⟩ s := by
  have hsource : ¬ m.source = Config.directory := hs
  have hhere : m.destination = Config.directory := hd
  simp only [classify, if_neg hsource, hk, if_pos hhere]

/-- What a valid message outside OFFLINE does, in any respect `heardAs` that its classification has
(R121 to R123). -/
theorem classify_handled {heardAs : State → Prop} (m : Heard) (s : State)
    (h : heardAs (classify m (observe m.source m.bound s))) :
    let seen := observe m.source m.bound s
    (m.source = 0 ∨ 239 < m.source → seen = s)
      ∧ (m.source = 0 ∨ 8 ≤ m.kind → heardAs (count .strays seen))
      ∧ ∀ k : ReqKind, m.source ≠ 0 → requestCode k = m.kind →
          (m.destination ≠ 0 → heardAs seen)
            ∧ (m.destination = 0 → ¬ ContentError k m.payload →
                (s.port.inbound.length < 4 → heardAs { seen with
                    port.inbound := s.port.inbound ++ [⟨m.source, m.bound, k, m.payload⟩] })
                  ∧ (4 ≤ s.port.inbound.length →
                      heardAs (setPart partQueueDrop (count .inboundDrops seen))))
            ∧ (m.destination = 0 → ContentError k m.payload →
                let x := if k ≠ .find ∧ 8 ≤ m.payload.length then identityAt m.payload 0 else 0
                heardAs (send m.source (.refuse x k .malformed) (count .refusals seen))) := by
  have hinbound := observe_inbound s m.source m.bound
  refine ⟨observe_outside, fun hs => classify_stray hs ▸ h, fun k hs hk => ?_⟩
  have hcode : requestOfCode m.kind = some k := hk ▸ requestOfCode_requestCode k
  refine ⟨fun hd => by rwa [classify_elsewhere hs hcode hd] at h, fun hd hc => ⟨fun hroom => ?_, fun hfull => ?_⟩,
    fun hd hc => ?_⟩
  · have hbuffer : (observe m.source m.bound s).port.inbound.length < Config.inboundRequests := by
      rwa [hinbound]
    rwa [classify_directory hs hcode hd, takeRequest, if_pos (contentOk_iff.2 hc), offerRequest,
      if_pos hbuffer, hinbound] at h
  · have hbuffer : ¬ (observe m.source m.bound s).port.inbound.length < Config.inboundRequests := by
      rw [hinbound]; exact Nat.not_lt.2 hfull
    rwa [classify_directory hs hcode hd, takeRequest, if_pos (contentOk_iff.2 hc), offerRequest,
      if_neg hbuffer] at h
  · rwa [classify_directory hs hcode hd, takeRequest, if_neg fun h => contentOk_iff.1 h hc,
      malformedIdentity_eq] at h

theorem takeValid_offline (hp : s.phase.phase = .offline) : takeValid m s = refreshAlive s :=
  if_pos hp

theorem takeValid_online (hp : s.phase.phase ≠ .offline) :
    takeValid m s = classify m (observe m.source m.bound (refreshAlive s)) := if_neg hp

end Valid

/-! ### The event (R120) -/

section Event

variable {s : State} {m : Heard} {bytes : List Byte} {extra : Nat}

theorem carrierFalls_attempt (h : attemptUnderWay s = true) :
    carrierFalls s = { s with port.carrier := false, port.overlapped := false } := if_pos h

theorem carrierFalls_heard (h : attemptUnderWay s = false) : carrierFalls s = heard s :=
  if_neg (by rw [h]; decide)

theorem exec_receive_error (hf : readFrame bytes extra = none) :
    exec (.receiveMessage bytes extra) s =
      .next (if attemptUnderWay s || s.port.overlapped then carrierFalls s
        else count .badMessages (carrierFalls s)) := by
  simp only [exec, execReceiveMessage, hf]

theorem exec_receive_valid (hf : readFrame bytes extra = some m) :
    exec (.receiveMessage bytes extra) s =
      .next (if restartSurvived s && directoryRequest m then takeValid m (carrierFalls s)
        else if attemptUnderWay s || s.port.overlapped then carrierFalls s
        else takeValid m (carrierFalls s)) := by
  simp only [exec, execReceiveMessage, hf]

/-- What is heard in a carrier period that overlaps an attempt, or during one, is discarded. -/
theorem exec_receive_discarded (h : (attemptUnderWay s || s.port.overlapped) = true)
    (hr : ∀ m, readFrame bytes extra = some m → (restartSurvived s && directoryRequest m) = false) :
    exec (.receiveMessage bytes extra) s = .next (carrierFalls s) := by
  cases hf : readFrame bytes extra with
  | none => rw [exec_receive_error hf, if_pos h]
  | some m => rw [exec_receive_valid hf, hr m hf, if_neg (by decide), if_pos h]

theorem exec_receive_survived (hf : readFrame bytes extra = some m)
    (h : (restartSurvived s && directoryRequest m) = true) :
    exec (.receiveMessage bytes extra) s = .next (takeValid m (carrierFalls s)) := by
  rw [exec_receive_valid hf, if_pos h]

theorem restartSurvived_of_idle (h : attemptUnderWay s = false) : restartSurvived s = false := by
  rw [restartSurvived, h]
  rfl

theorem exec_receive_heard (hh : Hearing s) (hf : readFrame bytes extra = some m) :
    exec (.receiveMessage bytes extra) s = .next (takeValid m (heard s)) := by
  obtain ⟨ha, ho⟩ := hh
  rw [exec_receive_valid hf, restartSurvived_of_idle ha, Bool.false_and, if_neg (by decide), ha, ho,
    Bool.or_false, if_neg (by decide), carrierFalls_heard ha]

/-- A request to the directory is row 3 of R121. -/
theorem directoryRequest_iff :
    directoryRequest m = true ↔
      m.source ≠ 0 ∧ (∃ k, requestOfCode m.kind = some k) ∧ m.destination = 0 := by
  simp only [directoryRequest, Config.directory, Bool.and_eq_true, bne_iff_ne, beq_iff_eq, and_assoc,
    Option.isSome_iff_exists]

end Event

/-- Settles O44: during an attempt, in an overlapped carrier period, and otherwise. -/
theorem messageReceived : Obligations.MessageReceived := by
  intro s bytes extra
  refine ⟨fun ha => ⟨fun h => ?_, fun m hs hp hf => ⟨fun hasked => ?_, fun hasked => ?_⟩⟩,
    fun ha ho => ?_, fun hh hf => ?_, fun m hh hf => ⟨fun hp => ?_, fun hp => ?_⟩⟩
  · rw [exec_receive_discarded (by rw [ha]; rfl), carrierFalls_attempt ha]
    intro m hm
    obtain h | h | h := h
    · rw [restartSurvived, h, Bool.and_false]; rfl
    · rw [restartSurvived, h, Bool.and_assoc, Bool.and_assoc]; simp
    · rw [h] at hm; cases hm
  · rw [exec_receive_discarded (by rw [ha]; rfl), carrierFalls_attempt ha]
    intro n hn
    rw [Bool.and_eq_false_imp]
    intro _
    obtain rfl : m = n := Option.some.inj (hf.symm.trans hn)
    rw [← Bool.not_eq_true, directoryRequest_iff]
    rintro ⟨hsource, ⟨k, hk⟩, hd⟩
    refine hasked ⟨hsource, ?_, hd⟩
    rw [← requestOfCode_eq_some hk]
    cases k <;> decide
  · obtain ⟨hsource, hkind, hd⟩ := hasked
    have hsurvived : restartSurvived s = true := by
      simp [restartSurvived, ha, hs, hp]
    by_cases hk : ∃ k, requestOfCode m.kind = some k
    · refine classify_handled (heardAs := fun t => exec (.receiveMessage bytes extra) s = .next t) m _ ?_
      have hrequest : (restartSurvived s && directoryRequest m) = true := by
        rw [hsurvived, Bool.true_and]
        exact directoryRequest_iff.2 ⟨hsource, hk, hd⟩
      rw [exec_receive_survived hf hrequest, carrierFalls_attempt ha, takeValid_online (by exact hp)]
      rfl
    · refine ⟨observe_outside, fun h => ?_, fun k _ h => ?_⟩
      · omega
      · exact absurd ⟨k, h ▸ requestOfCode_requestCode k⟩ hk
  · rw [exec_receive_discarded (by rw [ho, Bool.or_true]), carrierFalls_heard (by simpa using ha)]
    intro m _
    rw [restartSurvived_of_idle (by simpa using ha), Bool.false_and]
  · obtain ⟨ha, ho⟩ := hh
    rw [exec_receive_error hf, ha, ho, Bool.or_false, if_neg (by decide), carrierFalls_heard ha]
  · rw [exec_receive_heard hh hf, takeValid_offline (s := heard s) hp]
    rfl
  · refine classify_handled (heardAs := fun t => exec (.receiveMessage bytes extra) s = .next t) m _ ?_
    rw [exec_receive_heard hh hf, takeValid_online (s := heard s) hp]
    rfl

/-! ### The observer's report (R87 to R92) -/

section Report

variable {s : State} {a : Nat} {i : Index}

/-- Learning always does what the terms of claims say. -/
theorem learnedFrom_learnIfOn (a : Nat) (s : State) : LearnedFrom a s (learnIfOn a s) := by
  cases hon : s.phase.params.legacyLearning with
  | false => exact .inl ⟨hon, by simp [learnIfOn, hon]⟩
  | true =>
    refine .inr ⟨hon, ?_⟩
    cases hfree : lowestFree s with
    | some i =>
      have hlowest := lowestFree_eq.1 hfree
      exact .inl ⟨i, hlowest, learn_eq (.inr ⟨hon, .inl ⟨i, hlowest, rfl⟩⟩)⟩
    | none =>
      have hnone := lowestFree_none.1 hfree
      exact .inr ⟨hnone, learn_eq (.inr ⟨hon, .inr ⟨hnone, rfl⟩⟩)⟩

/-- The offering context of a RESERVED entry is found by its offer. -/
theorem offeringOf_only {c : CtxNum} {x : Exchange} {o : Offer} (hx : context s c = some x)
    (ho : x.stage = .offered o) (hi : o.entry = i)
    (hu : ∀ d y p, context s d = some y → y.stage = .offered p → p.entry = i → d = c) :
    offeringOf s i = some c := by
  refine find_lowest ⟨by simp [hx, ho, Stage.offer?, hi], fun d hd hh => ?_⟩
  cases hy : context s d with
  | none => simp [hy] at hh
  | some y =>
    cases hs : y.stage with
    | collecting k => simp [hy, hs, Stage.offer?] at hh
    | checking n t => simp [hy, hs, Stage.offer?] at hh
    | offered p => exact absurd (hu d y p hy hs (by simpa [hy, hs, Stage.offer?] using hh)) (ne_of_lt hd)

/-- Closing the context of an offer frees its entry and refuses the joiner, by a free kind (R63). -/
theorem closeUnasked_offered {c : CtxNum} {x : Exchange} {o : Offer} (r : Reason)
    (hx : context s c = some x) (ho : x.stage = .offered o)
    (hr : (entry s o.entry).state = .reserved) :
    closeUnasked c r s =
      send 254 (.refuse x.identity (Config.closingKind s.freeUsed) r)
        (count .refusals (idled c (released o.entry s))) := by
  have hctx : context { s with freeUsed := s.freeUsed + 1 } c = some x := hx
  have hstate : (entry { s with freeUsed := s.freeUsed + 1 } o.entry).state = .reserved := hr
  have hne : (entry { s with freeUsed := s.freeUsed + 1 } o.entry).state ≠ .free := by
    rw [hstate]; decide
  simp only [closeUnasked, closeRefused, hctx, closeContext, ho, withdraw_of_reserved hstate,
    freeEntry_released hne]
  rfl

theorem reportClear_unheld (h : AddressUnheld s a) : reportClear a s = learnIfOn a s := by
  simp only [reportClear, entryAt_unheld h]

theorem reportClear_reserved (h : HoldsAddress s i a) (hs : (entry s i).state = .reserved) :
    reportClear a s = reportReserved i a s := by
  simp only [reportClear, entryAt_holds h, hs]

theorem reportClear_held (h : HoldsAddress s i a) (hs : (entry s i).state = .held) :
    reportClear a s = reportHeld i a s := by
  simp only [reportClear, entryAt_holds h, hs]

theorem reportClear_live (h : HoldsAddress s i a) (hl : (entry s i).live = true) :
    reportClear a s = reportLive i s := by
  obtain hs | hs := live_iff.1 hl
  · simp only [reportClear, entryAt_holds h, hs]
  · simp only [reportClear, entryAt_holds h, hs]

theorem reportHeld_learns (hs : (entry s i).state = .held)
    (hon : s.phase.params.legacyLearning = true) :
    reportHeld i a s = learnIfOn a (released i s) := by
  have hne : (entry s i).state ≠ .free := by rw [hs]; decide
  rw [reportHeld, if_pos hon, freeEntry_released hne, learnIfOn, if_pos (by exact hon)]

/-- A LEGACY entry's silence allowance is refreshed, which its generation does not track (R88). -/
theorem reportLive_legacy (ho : (entry s i).origin = some .legacy) :
    reportLive i s =
      withEntry i { entry s i with remaining := some s.phase.params.legacySilence } s := by
  simp only [reportLive, ho]
  rw [changeEntry_untracked 0 (by simp [Entry.tracked, ho]), withCauses_zero]

theorem reportLive_collides (hl : (entry s i).live = true)
    (h : (entry s i).leased = true ∨ ((entry s i).origin = some .static ∧ (entry s i).identity ≠ none)) :
    reportLive i s = if (entry s i).dispute.collision then s else collided i s := by
  rw [← addCollision_eq hl]
  obtain h | ⟨ho, hx⟩ := h
  · obtain ho | ho := leased_iff.1 h
    · simp only [reportLive, ho]
    · simp only [reportLive, ho]
  · simp only [reportLive, ho, if_pos (Option.ne_none_iff_isSome.1 hx)]

theorem reportLive_unnamed (ho : (entry s i).origin = some .static)
    (hx : (entry s i).identity = none) : reportLive i s = s := by
  simp [reportLive, ho, hx]

theorem reportSet_unheld (hp : s.phase.phase ≠ .settling) (h : AddressUnheld s a) :
    reportSet a s = count .strays s := by
  simp only [reportSet, if_neg hp, entryAt_unheld h]

theorem reportSet_held (hp : s.phase.phase ≠ .settling) (h : HoldsAddress s i a) :
    reportSet a s = if (entry s i).origin = some .legacy then count .strays s else s := by
  simp only [reportSet, if_neg hp, entryAt_holds h]

end Report

/-- Settles O45: the bound flag, and then the entry at the source address by its state and origin. -/
theorem trafficReported : Obligations.TrafficReported := by
  intro s bytes m hh hf hp h1 h239 hd hk1 hk7
  obtain ⟨k, hk⟩ := requestOfCode_request hk1 hk7
  have hseen : exec (.receiveMessage bytes 0) s =
      .next (if m.bound then reportSet m.source (aliveAfter s)
        else reportClear m.source (aliveAfter s)) := by
    rw [exec_receive_heard hh hf, takeValid_online (s := heard s) hp, classify_elsewhere (by omega) hk hd, observe,
      if_pos ⟨h1, h239⟩]
    rfl
  refine ⟨fun hb => ?_, fun hb => ?_⟩
  · rw [hb, if_neg (by decide)] at hseen
    rw [hseen]
    refine ⟨fun hu => ?_, fun i e hi he => ?_⟩
    · exact ⟨_, learnedFrom_learnIfOn m.source (aliveAfter s),
        congrArg Host.Outcome.next (reportClear_unheld hu)⟩
    · subst he
      have hat : HoldsAddress (aliveAfter s) i m.source := hi
      refine ⟨fun c x o hs hx ho hoi hu => ?_, fun hs hon => ?_, fun hs hoff => ?_, fun hs ho => ?_,
        fun hl ho => ⟨fun hc => ?_, fun hc => ?_⟩, fun hl ho hx => ?_⟩
      · subst hoi
        refine ⟨Config.closingKind s.freeUsed, _, learnedFrom_learnIfOn m.source _, ?_⟩
        rw [reportClear_reserved hat hs, reportReserved,
          offeringOf_only (s := aliveAfter s) hx ho rfl hu]
        exact congrArg (fun t => Host.Outcome.next (learnIfOn m.source t))
          (closeUnasked_offered .retry (s := aliveAfter s) hx ho hs)
      · refine ⟨_, learnedFrom_learnIfOn m.source _, ?_⟩
        rw [reportClear_held hat hs, reportHeld_learns (s := aliveAfter s) hs hon]
      · have hon : ¬ (aliveAfter s).phase.params.legacyLearning = true := by
          show ¬ s.phase.params.legacyLearning = true
          rw [hoff]; decide
        rw [reportClear_held hat hs, reportHeld, if_neg hon]
      · rw [reportClear_live hat (live_iff.2 (.inl hs)), reportLive_legacy (s := aliveAfter s) ho]
        rfl
      · rw [reportClear_live hat hl, reportLive_collides (s := aliveAfter s) hl ho,
          if_neg (by rw [show (entry (aliveAfter s) i).dispute.collision = false from hc]; decide)]
      · rw [reportClear_live hat hl, reportLive_collides (s := aliveAfter s) hl ho,
          if_pos (by exact hc)]
      · rw [reportClear_live hat hl, reportLive_unnamed (s := aliveAfter s) ho hx]
  · rw [hb, if_pos rfl] at hseen
    rw [hseen]
    refine ⟨fun hset => ?_, fun hset => ⟨fun hu => ?_, fun i hi => ⟨fun ho => ?_, fun ho => ?_⟩⟩⟩
    · rw [reportSet, if_pos (by exact hset)]
    · rw [reportSet_unheld (s := aliveAfter s) hset hu]
    · rw [reportSet_held (s := aliveAfter s) hset hi, if_pos (by exact ho)]
    · rw [reportSet_held (s := aliveAfter s) hset hi, if_neg (by exact ho)]

end Sys2Proof.Machine
end

section
/-! The lease clock and the timers: ticks, expiries of entries, and expiries of timers (spec/02.1,
spec/02.2, spec/08.1). -/

namespace Sys2Proof.Machine

-- One lemma is elaborated after another, which keeps the check's memory low.
set_option Elab.async false

/-! ### A tick (R25, R26, R139) -/

section Tick

variable {s : State}

/-- The state after a tick at time `d` has reached the clock and the entries, but not the settle timer. -/
def ticked (d : Nat) (s : State) : State :=
  { advanceTo d s with
    table.entries := Vector.ofFn (fun i => tickedEntry s.table.entries[i] s.lease.owed[i])
    lease.owed := Vector.ofFn (fun i => tickedOwed s.table.entries[i] s.lease.owed[i])
    lease.nextTick := some (d + tickLength s) }

theorem ticked_phase (d : Nat) (s : State) : (ticked d s).phase = s.phase := by
  simp only [ticked, advanceTo_phase]

theorem exec_leaseTick {d : Nat} (h : s.lease.nextTick = some d) :
    exec .leaseTick s = .next (tickSettle (ticked d s)) := by
  simp only [exec, execLeaseTick, h]
  rfl

theorem tickSettle_eq_phase (s : State) :
    tickSettle s = { s with phase := (tickSettle s).phase } := by
  unfold tickSettle
  split
  · split
    · rfl
    · split <;> rfl
  · rfl

theorem tickSettle_lowers {n : Nat} (hp : s.phase.phase = .settling) (hn : s.phase.settle = some n)
    (h2 : 2 ≤ n) : (tickSettle s).phase = { s.phase with settle := some (n - 1) } := by
  have hlt : 1 < n := h2
  simp only [tickSettle, if_pos hp, hn, if_pos hlt]

theorem tickSettle_owes (hp : s.phase.phase = .settling) (hn : s.phase.settle = some 1) :
    (tickSettle s).phase = { s.phase with settleOwed := true } := by
  simp only [tickSettle, if_pos hp, hn, if_neg (Nat.lt_irrefl 1)]

theorem tickSettle_elsewhere (hp : s.phase.phase ≠ .settling) : tickSettle s = s := if_neg hp

theorem tickedOwed_getElem (s : State) (i : Index) :
    (Vector.ofFn (fun i : Index => tickedOwed s.table.entries[i] s.lease.owed[i]))[i] =
      tickedOwed (entry s i) s.lease.owed[i] := by
  simp [entry]

/-- An entry takes at once the count-downs that leave its remaining time above 0. -/
theorem tickedEntry_lowered {e : Entry} {n k : Nat} (ht : e.timed = true) (hr : e.remaining = some n)
    (h : k + 2 ≤ n) :
    tickedEntry e k = { e with remaining := some (n - (k + 1)) } ∧ tickedOwed e k = 0 := by
  have htakes : countDowns e (k + 1) = k + 1 := by
    rw [countDowns, hr]
    exact Nat.min_eq_left (Nat.le_sub_one_of_lt h)
  rw [tickedEntry, tickedOwed, if_pos ht, if_pos ht, htakes, Nat.sub_self, Entry.countedDown, hr]
  exact ⟨rfl, rfl⟩

/-- The count-down that would bring remaining to 0, and those behind it, stay owed. -/
theorem tickedEntry_owing {e : Entry} {n k : Nat} (ht : e.timed = true) (hr : e.remaining = some n)
    (h1 : 1 ≤ n) (h : n < k + 2) :
    tickedEntry e k = { e with remaining := some 1 } ∧ tickedOwed e k = k + 2 - n := by
  have htakes : countDowns e (k + 1) = n - 1 := by
    rw [countDowns, hr]
    exact Nat.min_eq_right (by show n - 1 ≤ k + 1; omega)
  have hleft : n - (n - 1) = 1 := by omega
  rw [tickedEntry, tickedOwed, if_pos ht, if_pos ht, htakes, Entry.countedDown, hr, Option.map_some,
    hleft]
  exact ⟨rfl, by omega⟩

theorem tickedEntry_untimed {e : Entry} (k : Nat) (ht : e.timed = false) :
    tickedEntry e k = e ∧ tickedOwed e k = 0 := by
  rw [tickedEntry, tickedOwed, ht]
  exact ⟨rfl, rfl⟩

theorem entry_afterTick (d : Nat) (s : State) (i : Index) :
    entry (tickSettle (ticked d s)) i = tickedEntry (entry s i) s.lease.owed[i] := by
  exact (congrArg (fun t => entry t i) (tickSettle_eq_phase (ticked d s))).trans (entry_ticked s i)

theorem owed_afterTick (d : Nat) (s : State) (i : Index) :
    (tickSettle (ticked d s)).lease.owed[i] = tickedOwed (entry s i) s.lease.owed[i] := by
  exact (congrArg (fun t : State => t.lease.owed[i]) (tickSettle_eq_phase (ticked d s))).trans
    (tickedOwed_getElem s i)

/-- A tick reaches the table, the clock, the phase's unit and the time alone. -/
theorem afterTick_frame (d : Nat) (s : State) :
    tickSettle (ticked d s) =
      { s with
        table := (tickSettle (ticked d s)).table, lease := (tickSettle (ticked d s)).lease
        phase := (tickSettle (ticked d s)).phase, now := (tickSettle (ticked d s)).now } := by
  have h := tickSettle_eq_phase (ticked d s)
  generalize tickSettle (ticked d s) = t at h ⊢
  rw [h, ticked]
  rfl

theorem exec_settleExpiry (hp : s.phase.phase = .settling) (ho : s.phase.settleOwed = true) :
    exec .settleExpiry s =
      .next (enterPhase .active { s with phase.settle := none, phase.settleOwed := false }) :=
  congrArg Host.Outcome.next (if_pos ⟨hp, ho⟩)

end Tick

/-- Settles O54: the entries by what they owe, the settle timer by the phase, and its expiry. -/
theorem leaseTickCountsDown : Obligations.LeaseTickCountsDown := by
  refine ⟨fun s d hd => ⟨_, exec_leaseTick hd, ?_, ?_, fun i n k ht hr hk => ⟨fun h => ?_, fun h1 h => ?_⟩,
    fun i ht => ?_, fun n hp hn h2 => tickSettle_lowers (s := ticked d s) hp hn h2,
    fun hp hn => tickSettle_owes (s := ticked d s) hp hn, fun hp => ?_, ?_⟩, fun s hp ho => ?_⟩
  · exact congrArg State.now (tickSettle_eq_phase (ticked d s))
  · exact congrArg (fun t : State => t.lease.nextTick) (tickSettle_eq_phase (ticked d s))
  · rw [entry_afterTick, owed_afterTick, hk]
    exact tickedEntry_lowered ht hr h
  · rw [entry_afterTick, owed_afterTick, hk]
    exact tickedEntry_owing ht hr h1 h
  · rw [entry_afterTick, owed_afterTick]
    exact tickedEntry_untimed _ ht
  · rw [tickSettle_elsewhere (by rwa [ticked_phase]), ticked_phase]
  · exact afterTick_frame d s
  · rw [exec_settleExpiry hp ho]
    rfl

/-! ### Expiries of entries (R27 to R30) -/

section Expiry

variable {s : State} {i : Index} {n : Nat}

theorem entry_count (k : Counter) (s : State) (i : Index) : entry (count k s) i = entry s i := by
  simp [entry]

/-- An expiry that takes the count-down its entry owes, with 1 remaining. -/
theorem expiryEvent_owed {own : Entry → Bool} {expire : Index → State → State}
    (ho : s.lease.owed[i] = n + 1) (hr : (entry s i).remaining = some 1)
    (ht : (entry s i).timed = true) (hown : own (entry s i) = true) :
    expiryEvent own expire i s = expire i { s with lease.owed := s.lease.owed.set i n } := by
  have howed : s.lease.owed[i] ≠ 0 := by rw [ho]; exact Nat.succ_ne_zero n
  have hlast : ¬ 1 < orZero (entry s i).remaining := by rw [hr]; exact Nat.lt_irrefl 1
  simp only [expiryEvent, if_neg (not_not.2 ht), if_neg hlast, if_pos hown, takeOwed, ho]
  rfl

theorem timed_of_leased {e : Entry} (hl : e.leased = true) (h : e.live = true ∨ e.state = .held) :
    e.timed = true := by
  obtain h | h := h
  · simp [Entry.timed, hl, h]
  · simp [Entry.timed, hl, h]

theorem timed_of_legacy {e : Entry} (ho : e.origin = some .legacy) (hs : e.state = .bound) :
    e.timed = true := by
  simp [Entry.timed, ho, hs]

/-- The hold after an expiry, and then a probe against the entry concludes GONE. -/
theorem expired_gone {t : State} {after : State → State} (hg : GoneThen s i after)
    (hl : (entry t i).live = true) (hp : t.phase = s.phase) (hj : t.join = s.join) :
    probeGone i (holdEntry .expired i t) =
      after (if s.phase.params.hold = 0 then released i t else heldBy .expired i t) := by
  obtain ⟨hfree, hheld, _⟩ := live_states hl
  rw [holdEntry_eq hfree hheld, hp]
  refine probeGone_eq hg ?_
  split
  · exact hj
  · exact hj

theorem expireBound_lapses (hs : (entry s i).state = .bound) (hgrace : s.phase.params.grace ≠ 0) :
    expireBound i s =
      withCauses i causeState
        (withEntry i
          { entry s i with
            state := .lapsing, generation := (entry s i).generation + 1,
            remaining := some s.phase.params.grace } (count .lapses s)) := by
  simp only [expireBound, if_neg hgrace]
  rw [changeEntry_state _ (by rw [entry_count, hs]; exact nofun), entry_count]

theorem expireBound_ends (hgrace : s.phase.params.grace = 0) :
    expireBound i s = probeGone i (holdEntry .expired i (count .lapses s)) := by
  simp only [expireBound, if_pos hgrace]

end Expiry

/-- Settles O55: each expiry by its entry's state and origin. -/
theorem expiriesMoveEntries : Obligations.ExpiriesMoveEntries := by
  rintro s i e n rfl ho hr
  refine ⟨fun hl hs hgrace => ?_, fun after hl hs hgrace hg => ?_, fun after hl hs hg => ?_,
    fun hl hs => ?_, fun hl hs => ?_⟩
  · have hexec : exec (.boundExpiry i) s = .next (expireBound i _) :=
      congrArg Host.Outcome.next (expiryEvent_owed ho hr
        (timed_of_leased hl (.inl (live_iff.2 (.inl hs)))) (by simp [hl, hs]))
    rw [hexec, expireBound_lapses (by exact hs) (by exact hgrace)]
    rfl
  · have hexec : exec (.boundExpiry i) s = .next (expireBound i _) :=
      congrArg Host.Outcome.next (expiryEvent_owed ho hr
        (timed_of_leased hl (.inl (live_iff.2 (.inl hs)))) (by simp [hl, hs]))
    rw [hexec, expireBound_ends (by exact hgrace)]
    refine congrArg Host.Outcome.next (expired_gone hg ?_ (count_phase _ _) (count_join _ _))
    rw [entry_count]
    exact live_iff.2 (.inl hs)
  · have hexec : exec (.lapsingExpiry i) s = .next (probeGone i (holdEntry .expired i _)) :=
      congrArg Host.Outcome.next (expiryEvent_owed ho hr
        (timed_of_leased hl (.inl (live_iff.2 (.inr hs)))) (by simp [hl, hs]))
    rw [hexec]
    exact congrArg Host.Outcome.next (expired_gone hg (live_iff.2 (.inr hs)) rfl rfl)
  · have hexec : exec (.heldExpiry i) s = .next (freeEntry i _) :=
      congrArg Host.Outcome.next (expiryEvent_owed ho hr
        (timed_of_leased hl (.inr hs)) (by simp [hl, hs]))
    rw [hexec, freeEntry_released fun h => by cases hs.symm.trans h]
  · have hexec : exec (.legacySilenceExpiry i) s = .next (freeEntry i _) :=
      congrArg Host.Outcome.next (expiryEvent_owed ho hr (timed_of_legacy hl hs) (by simp [hl, hs]))
    rw [hexec, freeEntry_released fun h => by cases hs.symm.trans h]

/-! ### Expiries of timers (R62, R96, R132) -/

section Timers

variable {s : State} {c : CtxNum} {x : Exchange}

theorem pageExpires_collecting {d : Nat} (hx : context s c = some x) (hs : x.stage = .collecting d) :
    pageExpires c s = closeUnasked c .timeout (advanceTo d s) := by
  simp only [pageExpires, hx, hs]

theorem agreeExpires_offered {o : Offer} (hx : context s c = some x) (hs : x.stage = .offered o) :
    agreeExpires c s = closeUnasked c .timeout (advanceTo o.deadline s) := by
  simp only [agreeExpires, hx, hs]

theorem probeAddress_eq {i : Index} {a : Nat} (ht : x.target = some i)
    (ha : (entry s i).address = some a) : probeAddress s x = some a := by
  rw [probeAddress, ht]
  exact ha

theorem probeExpires_again {k d a : Nat} (hx : context s c = some x)
    (hs : x.stage = .checking k (.running d)) (ha : probeAddress s x = some a)
    (hk : k < s.phase.params.probeTries) :
    probeExpires c s = sendCheck c x k a (advanceTo d s) := by
  simp only [probeExpires, hx, hs, ha, if_pos hk]

theorem probeExpires_gone {k d a : Nat} {i : Index} (hx : context s c = some x)
    (hs : x.stage = .checking k (.running d)) (ha : probeAddress s x = some a)
    (hk : s.phase.params.probeTries ≤ k) (ht : x.target = some i) :
    probeExpires c s =
      noteSuperseded i (advanceTo d s) (resolveTerms c (advanceTo d s)) := by
  simp only [probeExpires, hx, hs, ha, if_neg (Nat.not_lt.2 hk), goneUnanswered, ht]

/-- A binding that the offer supersedes is recorded with its holder (R103, log entry 27). -/
theorem noteSuperseded_taken {t : State} {i : Index} {holder : Word16}
    (hl : (entry s i).live = true) (hr : (entry t i).state = .reserved)
    (hh : (entry s i).incarnation = some holder) :
    noteSuperseded i s t = withEntry i { entry t i with superseded := some ⟨holder, false⟩ } t := by
  simp only [noteSuperseded, hh, if_pos (And.intro hl hr)]
  rfl

theorem noteSuperseded_kept {t : State} {i : Index}
    (h : ¬ ((entry s i).live = true ∧ (entry t i).state = .reserved)) :
    noteSuperseded i s t = t := by
  obtain ht | ⟨_, _, hl, hr, _⟩ := noteSuperseded_cases i s t
  · exact ht
  · exact absurd ⟨hl, hr⟩ h

theorem exec_silenceTimerExpiry {d : Nat} (h : s.port.silence = some d) :
    exec .silenceTimerExpiry s =
      .next (setPart partSilent
        { advanceTo d s with
          port.alive := false, port.silence := none, change.latchedLow := true }) := by
  simp only [exec, execSilenceTimerExpiry, h]

end Timers

/-- Settles O56: the page, agree, probe and silence timers in turn. -/
theorem timersExpire : Obligations.TimersExpire := by
  intro s c x
  refine ⟨fun d hx hs => ⟨Config.closingKind s.freeUsed, congrArg Host.Outcome.next ?_⟩,
    fun o hx hs hr => ⟨Config.closingKind s.freeUsed, congrArg Host.Outcome.next ?_⟩,
    fun n d i a hx hs ht ha hn => congrArg Host.Outcome.next ?_,
    fun n d i a hx hs ht ha hn => ⟨fun holder hl hr hh => congrArg Host.Outcome.next ?_,
      fun h => congrArg Host.Outcome.next ?_⟩, fun d hd => ?_⟩
  · exact (pageExpires_collecting hx hs).trans
      (closeUnasked_unoffered (s := advanceTo d s) .timeout hx (by rw [hs]; nofun))
  · exact (agreeExpires_offered hx hs).trans
      (closeUnasked_offered (s := advanceTo o.deadline s) .timeout hx hs hr)
  · exact probeExpires_again hx hs (probeAddress_eq ht ha) hn
  · exact (probeExpires_gone hx hs (probeAddress_eq ht ha) hn ht).trans
      (noteSuperseded_taken (s := advanceTo d s) hl hr hh)
  · exact (probeExpires_gone hx hs (probeAddress_eq ht ha) hn ht).trans
      (noteSuperseded_kept (s := advanceTo d s) h)
  · rw [exec_silenceTimerExpiry hd]
    rfl

end Sys2Proof.Machine
end

section
/-! KEEP and LEAVE: renewal, adoption and the end of a binding by its holder (spec/02.4, spec/02.5,
spec/08.2). -/

namespace Sys2Proof.Machine

-- One lemma is elaborated after another, which keeps the check's memory low.
set_option Elab.async false

/-! ### LEAVE (R41, R42) -/

section Leave

variable {s : State} {r : Request} {rest : List Request} {i : Index}

theorem exec_leave (hf : Front s r rest) (hk : r.kind = .leave) :
    exec .leave s = .next (takeLeave r (popped rest s)) :=
  congrArg Host.Outcome.next (dispatch_front hf hk)

theorem leaveMatches_iff {e : Entry} {p : List Byte} :
    leaveMatches e p = true ↔
      e.leased = true ∧ e.identity = some (payloadIdentity p)
        ∧ e.incarnation = some (word16At p 8) := by
  rw [leaveMatches, Bool.and_eq_true, Bool.and_eq_true, beq_iff_eq, beq_iff_eq, and_assoc]

/-- A LEAVE that no entry at its source matches is refused. -/
theorem takeLeave_unmatched (h : ∀ i, entryAt s r.source = some i →
      ¬ leaveMatches (entry s i) r.payload = true) :
    takeLeave r s = refuse r.source (payloadIdentity r.payload) .leave .notYours s := by
  have hnone : (entryAt s r.source).filter (fun i => leaveMatches (entry s i) r.payload) = none := by
    rw [Option.filter_eq_none_iff]
    exact fun i hi => h i hi
  simp only [takeLeave, hnone]

theorem takeLeave_matched (hi : entryAt s r.source = some i)
    (hm : leaveMatches (entry s i) r.payload = true) :
    takeLeave r s =
      if (entry s i).live then
        probeGone i (send r.source (.closed (payloadIdentity r.payload)) (holdEntry .left i s))
      else if (entry s i).state = .held ∧ (entry s i).heldCause = some .left then
        send r.source (.closed (payloadIdentity r.payload)) s
      else refuse r.source (payloadIdentity r.payload) .leave .notYours s := by
  have hsome : (entryAt s r.source).filter (fun i => leaveMatches (entry s i) r.payload) = some i := by
    rw [hi]
    exact Option.filter_some_pos hm
  simp only [takeLeave, hsome]

end Leave

/-- Settles O53: a LEAVE that matches the entry at its source, by the entry's state, and any other. -/
theorem leaveEndsBinding : Obligations.LeaveEndsBinding := by
  intro s r rest hf hk
  rw [exec_leave hf hk]
  refine ⟨fun i e hi he => ?_, fun hu => ?_⟩
  · subst he
    have hat : entryAt (popped rest s) r.source = some i := entryAt_holds hi
    refine ⟨fun after ht hl hg => ?_, fun ht hs hc => ?_, fun h => ?_⟩
    · obtain ⟨hfree, hheld, _⟩ := live_states hl
      have hend : holdEntry .left i (popped rest s) =
          if s.phase.params.hold = 0 then released i (popped rest s)
          else heldBy .left i (popped rest s) := holdEntry_eq hfree hheld
      rw [takeLeave_matched hat (leaveMatches_iff.2 ht), if_pos (by exact hl), hend]
      refine congrArg Host.Outcome.next (probeGone_eq hg ?_)
      rw [send_join]
      split
      · rfl
      · rfl
    · have hlive : ¬ (entry (popped rest s) i).live = true := fun hl =>
        (live_states hl).2.1 hs
      rw [takeLeave_matched hat (leaveMatches_iff.2 ht), if_neg hlive, if_pos ⟨hs, hc⟩]
    · by_cases ht : leaveMatches (entry s i) r.payload = true
      · obtain h := h.resolve_left (not_not.2 (leaveMatches_iff.1 ht))
        obtain ⟨hlive, hleft⟩ := not_or.1 h
        rw [takeLeave_matched hat ht, if_neg (by exact hlive), if_neg (by exact hleft)]
        rfl
      · rw [takeLeave_unmatched fun j hj => by rw [hat] at hj; cases hj; exact ht]
        rfl
  · rw [takeLeave_unmatched fun j hj => by
      rw [show entryAt (popped rest s) r.source = none from entryAt_unheld hu] at hj; cases hj]
    rfl

/-! ### What a KEEP forgets leaves of every entry all but one field (R103) -/

section Forgetting

variable {s : State} {k : KeepFields}

/-- The entry after a KEEP was met, but for the record of its holder's loss. -/
theorem entry_met (k : KeepFields) (s : State) (i : Index) :
    ∃ r, entry (forgetLoss k s) i = { entry s i with superseded := r } := by
  rw [entry_forgetLoss]
  obtain h | h := forgetting_cases k.identity k.incarnation (entry s i)
  · exact ⟨_, h⟩
  · exact ⟨none, h⟩

theorem state_met (k : KeepFields) (s : State) (i : Index) :
    (entry (forgetLoss k s) i).state = (entry s i).state := by
  obtain ⟨r, h⟩ := entry_met k s i
  rw [h]

theorem remaining_met (k : KeepFields) (s : State) (i : Index) :
    (entry (forgetLoss k s) i).remaining = (entry s i).remaining := by
  obtain ⟨r, h⟩ := entry_met k s i
  rw [h]

theorem identity_met (k : KeepFields) (s : State) (i : Index) :
    (entry (forgetLoss k s) i).identity = (entry s i).identity := by
  obtain ⟨r, h⟩ := entry_met k s i
  rw [h]

theorem generation_met (k : KeepFields) (s : State) (i : Index) :
    (entry (forgetLoss k s) i).generation = (entry s i).generation := by
  obtain ⟨r, h⟩ := entry_met k s i
  rw [h]

theorem heldCause_met (k : KeepFields) (s : State) (i : Index) :
    (entry (forgetLoss k s) i).heldCause = (entry s i).heldCause := by
  obtain ⟨r, h⟩ := entry_met k s i
  rw [h]

theorem identityUnheld_met {x : Identity} :
    IdentityUnheld (forgetLoss k s) x ↔ IdentityUnheld s x := by
  refine forall_congr' fun i => ?_
  rw [identity_met, Entry.occupied_iff, Entry.occupied_iff, state_met]

end Forgetting

/-! ### Allocation, as a change of the entry it takes (R17, R18) -/

section Taken

variable {s t : State} {i : Index} {advance : Word16} {causes : CauseSet}

theorem Reclaimed.congr (hs : ∀ j, (entry t j).state = (entry s j).state)
    (hr : ∀ j, (entry t j).remaining = (entry s j).remaining) (h : Reclaimed s i) : Reclaimed t i := by
  unfold Reclaimed at h ⊢
  simpa only [hs, hr] using h

/-- The entry that an allocation takes depends on the states and the remaining times alone. -/
theorem EntryTaken.congr (hs : ∀ j, (entry t j).state = (entry s j).state)
    (hr : ∀ j, (entry t j).remaining = (entry s j).remaining)
    (h : EntryTaken s none i advance causes) : EntryTaken t none i advance causes := by
  obtain ⟨h, _⟩ | ⟨_, h⟩ | ⟨_, hn, hi, h⟩ := h
  · cases h
  · exact .inr (.inl ⟨rfl, by simpa only [hs] using h⟩)
  · exact .inr (.inr ⟨rfl, fun j => hs j ▸ hn j, hi.congr hs hr, h⟩)

/-- The entry an allocation takes is FREE afterwards, in a state that differs in the table and the causes
alone, and the change that occupies it is one change of the state before. -/
theorem allocate_taken (h : EntryTaken s none i advance causes) :
    ∃ u, allocate s = some (i, u) ∧ (u = s ∨ u = released i s) ∧ (entry u i).state = .free
      ∧ ∀ new : Entry, new.state ≠ .free →
          changeEntry i new (causeCreated ||| causeTerms) u =
            withCauses i causes
              (withEntry i { new with generation := (entry s i).generation + advance } s) := by
  obtain ⟨h, _⟩ | ⟨_, hi, rfl, rfl⟩ | ⟨_, hn, hi, rfl, rfl⟩ := h
  · cases h
  · exact ⟨s, allocate_lowest hi, .inl rfl, hi.1, fun new hnew => changeEntry_lowest _ hi hnew⟩
  · refine ⟨released i s, allocate_reclaimed hn hi, .inr rfl, ?_, fun new hnew => ?_⟩
    · rw [entry_released, if_pos rfl]
      rfl
    · rw [changeEntry_released _ hnew, BitVec.or_assoc]

end Taken

/-! ### Renewal (R34) -/

section Renewal

variable {s : State} {i : Index} {lease : Nat}

/-- No causes added to a set. -/
theorem causes_or_zero (c : CauseSet) : c ||| 0 = c := BitVec.or_zero

theorem renewCauses_eq (e : Entry) : renewCauses e = if e.state = .lapsing then causeState else 0 := rfl

/-- A renewal advances the generation of a LAPSING entry alone: lease and remaining are not tracked. -/
theorem renewEntry_eq (hl : (entry s i).live = true) :
    renewEntry i lease s =
      withCauses i (if (entry s i).state = .lapsing then causeState else 0)
        (withEntry i
          { entry s i with
            state := .bound
            generation := if (entry s i).state = .lapsing then (entry s i).generation + 1
              else (entry s i).generation
            lease := some lease, remaining := some lease } s) := by
  rw [renewEntry, renewCauses_eq]
  obtain hs | hs := live_iff.1 hl
  · have hbound : ¬ (entry s i).state = .lapsing := by rw [hs]; decide
    rw [if_neg hbound, if_neg hbound, changeEntry_untracked 0 (by simp [Entry.tracked, Entry.renewed, hs])]
    rfl
  · rw [if_pos hs, if_pos hs, changeEntry_state causeState (by rw [hs]; exact nofun)]
    rfl

end Renewal

/-! ### KEEP at an entry (R33 to R39) -/

section Keep

variable {s : State} {r : Request} {rest : List Request} {i : Index} {k : KeepFields} {late : Bool}
  {source : Nat}

theorem exec_keep (hf : Front s r rest) (hk : r.kind = .keep) :
    exec .keep s = .next (takeKeep r (popped rest s)) :=
  congrArg Host.Outcome.next (dispatch_front hf hk)

theorem takeKeep_live (hi : HoldsAddress s i r.source) (hl : (entry s i).live = true) :
    takeKeep r s =
      keepLive i (readKeep r.payload) (fromLateHolder i (readKeep r.payload) s) r.source
        (forgetLoss (readKeep r.payload) s) := by
  obtain hs | hs := live_iff.1 hl
  · simp only [takeKeep, entryAt_holds hi, hs]
  · simp only [takeKeep, entryAt_holds hi, hs]

theorem takeKeep_held (hi : HoldsAddress s i r.source) (hs : (entry s i).state = .held) :
    takeKeep r s =
      if (entry s i).identity = some (readKeep r.payload).identity then
        refuse r.source (readKeep r.payload).identity .keep (heldReason (entry s i).heldCause)
          (forgetLoss (readKeep r.payload) s)
      else refuse r.source (readKeep r.payload).identity .keep .notYours
        (forgetLoss (readKeep r.payload) s) := by
  simp only [takeKeep, entryAt_holds hi, hs]

theorem takeKeep_reserved (hi : HoldsAddress s i r.source) (hs : (entry s i).state = .reserved) :
    takeKeep r s =
      refuse r.source (readKeep r.payload).identity .keep .notYours
        (forgetLoss (readKeep r.payload) s) := by
  simp only [takeKeep, entryAt_holds hi, hs]

theorem takeKeep_unknown (hu : AddressUnheld s r.source) (hp : s.phase.phase ≠ .settling) :
    takeKeep r s =
      refuse r.source (readKeep r.payload).identity .keep .unknown
        (forgetLoss (readKeep r.payload) s) := by
  simp only [takeKeep, entryAt_unheld hu, if_neg hp]

theorem takeKeep_settling (hu : AddressUnheld s r.source) (hp : s.phase.phase = .settling) :
    takeKeep r s =
      adopt (readKeep r.payload) r.source (forgetLoss (readKeep r.payload) s) := by
  simp only [takeKeep, entryAt_unheld hu, if_pos hp]

theorem keepLive_collides (hx : (entry s i).identity ≠ some k.identity) :
    keepLive i k late source s = keepCollides i k source s := by
  simp only [keepLive, if_pos hx]

theorem keepLive_static (hx : (entry s i).identity = some k.identity)
    (ho : (entry s i).origin = some .static) :
    keepLive i k late source s =
      send source (.kept k.identity 0 (entry s i).generation) (count .renewals s) := by
  have hleased : ¬ (entry s i).leased = true := by
    rw [leased_iff, ho]
    decide
  simp only [keepLive, if_neg (not_not.2 hx), if_pos hleased]

theorem keepLive_rejoins (hx : (entry s i).identity = some k.identity)
    (hl : (entry s i).leased = true) (ho : (entry s i).incarnation ≠ some k.incarnation) :
    keepLive i k late source s = keepRejoins i k late source s := by
  simp only [keepLive, if_neg (not_not.2 hx), if_neg (not_not.2 hl), if_pos ho]

theorem keepLive_renews (hx : (entry s i).identity = some k.identity)
    (hl : (entry s i).leased = true) (ho : (entry s i).incarnation = some k.incarnation)
    (hp : probing s i = none) :
    keepLive i k late source s = keepRenews i k source s := by
  simp only [keepLive, if_neg (not_not.2 hx), if_neg (not_not.2 hl), if_neg (not_not.2 ho), hp]

theorem keepLive_duplicates {c : CtxNum} (hx : (entry s i).identity = some k.identity)
    (hl : (entry s i).leased = true) (ho : (entry s i).incarnation = some k.incarnation)
    (hp : probing s i = some c) :
    keepLive i k late source s = keepDuplicates i c k source s := by
  simp only [keepLive, if_neg (not_not.2 hx), if_neg (not_not.2 hl), if_neg (not_not.2 ho), hp]

theorem keepRenews_eq (hl : (entry s i).live = true) :
    keepRenews i k source s =
      send source
        (.kept k.identity (clampLease s.phase.params k.lease none)
          (if (entry s i).state = .lapsing then (entry s i).generation + 1
            else (entry s i).generation))
        (count .renewals (renewEntry i (clampLease s.phase.params k.lease none) s)) := by
  simp only [keepRenews]
  rw [entry_count, renewEntry_eq hl, entry_changed_same]

/-- The renewal of an entry under probe adds DUPLICATE_IDENTITY in the same change (R100). -/
theorem duplicated_eq {lease : Nat} (hd : (entry s i).dispute.duplicate = false) :
    changeEntry i
        { (entry s i).renewed lease with
          dispute := { (entry s i).dispute with duplicate := true } }
        (renewCauses (entry s i) ||| (if (entry s i).dispute.duplicate then 0 else causeDispute)) s =
      withCauses i ((if (entry s i).state = .lapsing then causeState else 0) ||| causeDispute)
        (withEntry i
          { entry s i with
            state := .bound, generation := (entry s i).generation + 1, lease := some lease
            remaining := some lease
            dispute := { (entry s i).dispute with duplicate := true } } s) := by
  have htracked : (entry s i).tracked ≠
      Entry.tracked { (entry s i).renewed lease with
        dispute := { (entry s i).dispute with duplicate := true } } := by
    intro h
    have hflag := congrArg (fun e => e.dispute.duplicate) h
    simp [Entry.tracked, hd] at hflag
  rw [changeEntry_tracked _ htracked, hd, renewCauses_eq]
  rfl

theorem keepRejoins_unprobed (h : probing s i = none) :
    keepRejoins i k late source s =
      refuse source k.identity .keep (if late then .notYours else .rejoin) s := by
  simp only [keepRejoins, h]

theorem keepRejoins_probed {c : CtxNum} {y : Exchange} (h : probing s i = some c)
    (hy : context s c = some y) :
    keepRejoins i k late source s =
      if y.incarnation = k.incarnation then
        resolveTerms c (refuse source k.identity .keep .rejoin s)
      else refuse source k.identity .keep .rejoin s := by
  simp [keepRejoins, h, hy]

theorem keepCollides_eq (hl : (entry s i).live = true) :
    keepCollides i k source s =
      refuse source k.identity .keep .notYours
        (if (entry s i).dispute.collision then s else collided i s) := by
  rw [keepCollides, addCollision_eq hl]

/-- A CHECKING context refused for a duplicate becomes IDLE, by a free kind (R100). -/
theorem closeDuplicate_checking {u : State} {c : CtxNum} {y : Exchange} (hj : u.join = s.join)
    (hf : u.freeUsed = s.freeUsed) (hy : context s c = some y) (hc : y.checking = true) :
    closeDuplicate c u =
      send 254 (.refuse y.identity (Config.closingKind s.freeUsed) .duplicate)
        (count .refusals
          { count .duplicates u with
            join.contexts := s.join.contexts.set c none, freeUsed := s.freeUsed + 1 }) := by
  have hunoffered : ∀ o, y.stage ≠ .offered o := by
    intro o ho
    rw [Exchange.checking, ho] at hc
    cases hc
  have hctx : context (count .duplicates u) c = some y := by
    rw [context, count_join, hj]
    exact hy
  have hidled : idled c (count .duplicates u) =
      { count .duplicates u with
        join.contexts := s.join.contexts.set c none, freeUsed := s.freeUsed + 1 } := by
    simp [idled, hj, hf]
  rw [closeDuplicate, closeUnasked_unoffered _ hctx hunoffered, hidled, count_freeUsed, hf]

end Keep

/-- Settles O51: the live entry by identity, origin, incarnation and probe; then the HELD and the RESERVED
entry; then no entry. -/
theorem keepAnsweredByEntry : Obligations.KeepAnsweredByEntry := by
  intro s r rest hf hk
  rw [exec_keep hf hk]
  have hmet : keepMet (payloadIdentity r.payload) (word16At r.payload 8) (popped rest s) =
      forgetLoss (readKeep r.payload) (popped rest s) := 
    (forgetLoss_eq (readKeep r.payload) (popped rest s)).symm
  simp only [hmet]
  refine ⟨fun i e hi he hl => ?_, fun i e hi he => ⟨fun h hs hc hx => ?_, fun h => ?_⟩, fun hu hp => ?_⟩
  · subst he
    have hlive : (entry (popped rest s) i).live = true := by
      rwa [entry_forgetLoss, live_forgetting] at hl
    rw [takeKeep_live (s := popped rest s) hi hlive]
    refine ⟨fun hleased hx ho hp => ?_, fun c y hleased hx ho hp hy hd => ?_,
      fun hleased hx ho => ⟨fun hp hlost => ?_, fun hp hlost => ?_, fun c y hp hy =>
        ⟨fun hinc => ?_, fun hinc => ?_⟩⟩, fun hx => ?_, fun ho hx => ?_⟩
    · have hprobe : probing (forgetLoss (readKeep r.payload) (popped rest s)) i = none :=
        probing_none hp
      rw [keepLive_renews hx hleased ho hprobe, keepRenews_eq hl, renewEntry_eq hl]
      simp only [causes_or_zero]
      rfl
    · have hprobe : probing (forgetLoss (readKeep r.payload) (popped rest s)) i = some c :=
        probing_only hp
      obtain ⟨⟨z, hz, hchecking, _⟩, _⟩ := hp
      obtain rfl : z = y := Option.some.inj (hz.symm.trans hy)
      refine ⟨Config.closingKind s.freeUsed, ?_⟩
      rw [keepLive_duplicates hx hleased ho hprobe, keepDuplicates]
      simp only [duplicated_eq hd, entry_count, entry_changed_same]
      exact congrArg Host.Outcome.next (closeDuplicate_checking (s := s)
        ((send_join _ _ _).trans (count_join _ _)) ((send_freeUsed _ _ _).trans (count_freeUsed _ _))
        hy hchecking)
    · have hprobe : probing (forgetLoss (readKeep r.payload) (popped rest s)) i = none :=
        probing_none hp
      have hearly : ¬ fromLateHolder i (readKeep r.payload) (popped rest s) = true := fun h =>
        hlost ((fromLateHolder_iff ((identity_met _ _ i).symm.trans hx)).1 h)
      rw [keepLive_rejoins hx hleased ho, keepRejoins_unprobed hprobe, if_neg hearly]
      rfl
    · have hprobe : probing (forgetLoss (readKeep r.payload) (popped rest s)) i = none :=
        probing_none hp
      have hlate : fromLateHolder i (readKeep r.payload) (popped rest s) = true :=
        (fromLateHolder_iff hlost.1).2 hlost
      rw [keepLive_rejoins hx hleased ho, keepRejoins_unprobed hprobe, if_pos hlate]
      rfl
    · have hprobe : probing (forgetLoss (readKeep r.payload) (popped rest s)) i = some c :=
        probing_only hp
      rw [keepLive_rejoins hx hleased ho, keepRejoins_probed hprobe hy, if_pos (by exact hinc)]
      rfl
    · have hprobe : probing (forgetLoss (readKeep r.payload) (popped rest s)) i = some c :=
        probing_only hp
      rw [keepLive_rejoins hx hleased ho, keepRejoins_probed hprobe hy, if_neg (by exact hinc)]
      rfl
    · rw [keepLive_collides hx, keepCollides_eq hl]
      rfl
    · rw [keepLive_static hx ho]
      rfl
  · subst he
    rw [state_met] at hs
    rw [heldCause_met] at hc
    rw [identity_met] at hx
    rw [takeKeep_held (s := popped rest s) hi hs, if_pos (by exact hx), hc]
    cases h <;> rfl
  · subst he
    rw [state_met, identity_met] at h
    obtain hs | ⟨hs, hx⟩ := h
    · rw [takeKeep_reserved (s := popped rest s) hi hs]
      rfl
    · rw [takeKeep_held (s := popped rest s) hi hs, if_neg (by exact hx)]
      rfl
  · rw [takeKeep_unknown (s := popped rest s) hu hp]
    rfl

/-! ### Adoption (R144, R145) -/

section Adoption

variable {s : State} {k : KeepFields} {source : Nat} {caps : Caps}

/-- The tests of R144 that do not read the filter list. -/
def AdoptionTested (s : State) (k : KeepFields) (source : Nat) : Prop :=
  1 ≤ source ∧ source ≤ 239 ∧ s.phase.params.adoption = true ∧ IdentityUnheld s k.identity

theorem adopt_untested (h : ¬ AdoptionTested s k source) :
    adopt k source s = refuse source k.identity .keep .rejoin s := by
  refine if_pos ?_
  rw [← Option.ne_none_iff_isSome, ne_eq, entryOf_none]
  by_contra hall
  obtain ⟨hrange, hon, hunheld⟩ : (1 ≤ source ∧ source ≤ Config.maxAddress)
      ∧ s.phase.params.adoption = true ∧ IdentityUnheld s k.identity := by
    simpa only [not_or, not_not] using hall
  exact h ⟨hrange.1, hrange.2, hon, hunheld⟩

theorem adopt_tested (h : AdoptionTested s k source) :
    adopt k source s =
      match adoptionCaps s k with
      | none => refuse source k.identity .keep .rejoin s
      | some caps =>
        if ¬ inClassSet s.phase.params.offered k.cls.val then
          refuse source k.identity .keep .rejoin s
        else
          match allocate s with
          | none => refuse source k.identity .keep .tableFull (setPart partTableFull s)
          | some (i, t) =>
            adoptInto i k source (clampLease s.phase.params k.lease caps.lease) t := by
  obtain ⟨h1, h239, hon, hunheld⟩ := h
  refine if_neg ?_
  rw [← Option.ne_none_iff_isSome, ne_eq, entryOf_none, hon]
  rintro (hrange | hoff | hheld)
  · exact hrange ⟨h1, h239⟩
  · exact hoff rfl
  · exact hheld hunheld

theorem adoptionCaps_none (h : verdict s k.identity = none) : adoptionCaps s k = none := by
  rw [adoptionCaps, h]
  rfl

theorem adoptionCaps_outside (h : verdict s k.identity = some caps)
    (hc : caps.classes.getLsbD k.cls.val ≠ true) : adoptionCaps s k = none := by
  rw [adoptionCaps, h, Option.filter_eq_none_iff]
  rintro _ ⟨⟩
  exact hc

theorem adoptionCaps_inside (h : verdict s k.identity = some caps)
    (hc : caps.classes.getLsbD k.cls.val = true) : adoptionCaps s k = some caps := by
  rw [adoptionCaps, h]
  exact Option.filter_some_pos hc

theorem adopt_refused (ht : AdoptionTested s k source)
    (h : adoptionCaps s k = none ∨ s.phase.params.offered.getLsbD k.cls.val ≠ true) :
    adopt k source s = refuse source k.identity .keep .rejoin s := by
  rw [adopt_tested ht]
  cases hc : adoptionCaps s k with
  | none => rfl
  | some caps =>
    have hout : ¬ inClassSet s.phase.params.offered k.cls.val = true :=
      h.resolve_left (by rw [hc]; nofun)
    exact if_pos hout

theorem adopt_full (ht : AdoptionTested s k source) (hc : adoptionCaps s k = some caps)
    (ho : s.phase.params.offered.getLsbD k.cls.val = true) (ha : allocate s = none) :
    adopt k source s = refuse source k.identity .keep .tableFull (setPart partTableFull s) := by
  have hin : ¬ ¬ inClassSet s.phase.params.offered k.cls.val = true := not_not.2 ho
  rw [adopt_tested ht]
  simp only [hc, if_neg hin, ha]

theorem adopt_taken {i : Index} {u : State} (ht : AdoptionTested s k source)
    (hc : adoptionCaps s k = some caps) (ho : s.phase.params.offered.getLsbD k.cls.val = true)
    (ha : allocate s = some (i, u)) :
    adopt k source s = adoptInto i k source (clampLease s.phase.params k.lease caps.lease) u := by
  have hin : ¬ ¬ inClassSet s.phase.params.offered k.cls.val = true := not_not.2 ho
  rw [adopt_tested ht]
  simp only [hc, if_neg hin, ha]

/-- An adoption's KEPT carries the generation that its entry then has (R145). -/
theorem adoptInto_eq {i : Index} {u : State} {lease : Nat} {causes : CauseSet} {g : Word16}
    (h : changeEntry i (adoptedEntry k source lease) (causeCreated ||| causeTerms) u =
      withCauses i causes
        (withEntry i { adoptedEntry k source lease with generation := g } s)) :
    adoptInto i k source lease u =
      send source (.kept k.identity lease g)
        (count .renewals
          (withCauses i causes
            (withEntry i { adoptedEntry k source lease with generation := g } s))) := by
  simp only [adoptInto, h, entry_changed_same]

/-- The fields of a KEEP whose content the port has tested, as its bytes spell them (R185). -/
theorem readKeep_bytes {p : List Byte} (h : ¬ ContentError .keep p) :
    (readKeep p).identity = identityAt p 0 ∧ (readKeep p).cls.val = (byteAt p 10).toNat := by
  have hlength : p.length = 15 + (byteAt p 14).toNat := by
    by_contra hne
    exact h (.inr (.inl hne))
  have hclass : (byteAt p 10).toNat ≤ 7 := by
    by_contra hgt
    exact h (.inr (.inr (.inl (Nat.not_le.1 hgt))))
  exact ⟨if_pos (by omega), Nat.mod_eq_of_lt (by omega)⟩

end Adoption

/-- The three steps of the lease clamp (R32). -/
theorem clampLease_steps {p : Params} (requested : Nat) (cap : Option Nat)
    (hp : p.minLease ≤ p.maxLease) :
    let asked := if requested = 0 then p.defaultLease else requested
    let bounded := min (max asked p.minLease) p.maxLease
    (asked < p.minLease → bounded = p.minLease) ∧ (p.maxLease < asked → bounded = p.maxLease)
      ∧ (p.minLease ≤ asked → asked ≤ p.maxLease → bounded = asked)
      ∧ (cap = none → clampLease p requested cap = bounded)
      ∧ ∀ n, cap = some n →
          (n < bounded → clampLease p requested cap = n)
            ∧ (bounded ≤ n → clampLease p requested cap = bounded) := by
  intro asked bounded
  refine ⟨fun h => ?_, fun h => ?_, fun h1 h2 => ?_, fun h => ?_, fun n h => ⟨fun hn => ?_, fun hn => ?_⟩⟩
  · show min (max asked p.minLease) p.maxLease = _
    omega
  · show min (max asked p.minLease) p.maxLease = _
    omega
  · show min (max asked p.minLease) p.maxLease = _
    omega
  · rw [h]
    rfl
  · rw [h]
    exact Nat.min_eq_right hn.le
  · rw [h]
    exact Nat.min_eq_left hn

/-- Settles O52: the tests in their order, the adoption, and the lease clamp. -/
theorem keepAdopted : Obligations.KeepAdopted := by
  refine ⟨fun s r rest hf hk hp hu => ?_, fun p requested cap hle =>
    ⟨_, _, fun h => if_pos h, fun h => if_neg h, clampLease_steps requested cap hle⟩⟩
  have hmet : keepMet (readKeep r.payload).identity (readKeep r.payload).incarnation (popped rest s) =
      forgetLoss (readKeep r.payload) (popped rest s) := (forgetLoss_eq _ _).symm
  rw [exec_keep hf hk, takeKeep_settling (s := popped rest s) hu hp]
  simp only [hmet]
  have htested : AdoptionTested (forgetLoss (readKeep r.payload) (popped rest s))
      (readKeep r.payload) r.source ↔
        1 ≤ r.source ∧ r.source ≤ 239 ∧ s.phase.params.adoption = true
          ∧ IdentityUnheld s (readKeep r.payload).identity :=
    and_congr_right' (and_congr_right' (and_congr_right' identityUnheld_met))
  have hverdict : verdict (forgetLoss (readKeep r.payload) (popped rest s))
      (readKeep r.payload).identity = verdict s (readKeep r.payload).identity := rfl
  refine ⟨fun hc => ?_, fun ht => ?_, fun ht hv => ?_, fun caps ht hv => ⟨fun ha => ?_, fun ha hfull => ?_,
    fun i advance causes ha he => ?_⟩⟩
  · obtain ⟨hidentity, hclass⟩ := readKeep_bytes hc
    exact ⟨hidentity, rfl, hclass, rfl, rfl, rfl⟩
  · rw [adopt_untested fun h => ht (htested.1 h)]
    rfl
  · rw [adopt_refused (htested.2 ht) (.inl (adoptionCaps_none (hverdict.trans hv)))]
    rfl
  · rw [adopt_refused (htested.2 ht)]
    · rfl
    · by_cases hin : caps.classes.getLsbD (readKeep r.payload).cls.val = true
      · exact .inr fun ho => ha ⟨hin, ho⟩
      · exact .inl (adoptionCaps_outside (hverdict.trans hv) hin)
  · obtain ⟨hin, ho⟩ := ha
    have hnone : allocate (forgetLoss (readKeep r.payload) (popped rest s)) = none :=
      allocate_fails (fun j => by rw [state_met]; exact (hfull j).1)
        (fun j => by rw [state_met]; exact (hfull j).2)
    rw [adopt_full (htested.2 ht) (adoptionCaps_inside (hverdict.trans hv) hin) ho hnone]
    rfl
  · obtain ⟨hin, ho⟩ := ha
    have hstate : ∀ j, (entry (forgetLoss (readKeep r.payload) (popped rest s)) j).state =
        (entry s j).state := state_met _ _
    have hremaining : ∀ j, (entry (forgetLoss (readKeep r.payload) (popped rest s)) j).remaining =
        (entry s j).remaining := remaining_met _ _
    have hgeneration : (entry (forgetLoss (readKeep r.payload) (popped rest s)) i).generation =
        (entry s i).generation := generation_met _ _ i
    obtain ⟨u, hu, _, _, hchange⟩ := allocate_taken (he.congr hstate hremaining)
    rw [adopt_taken (htested.2 ht) (adoptionCaps_inside (hverdict.trans hv) hin) ho hu]
    refine congrArg Host.Outcome.next ((adoptInto_eq (hchange (adoptedEntry _ _ _) nofun)).trans ?_)
    rw [hgeneration]
    rfl

end Sys2Proof.Machine
end

section
/-! Resolution, step by step: the target, the class, the address and the entry of a join (spec/04.4). -/

namespace Sys2Proof.Machine

-- One lemma is elaborated after another, which keeps the check's memory low.
set_option Elab.async false

/-! ### The steps (R75, R77, R78, R21) -/

section Steps

variable {s : State} {x : Exchange} {target : Option Index}

theorem settledTarget_eq (h : TargetSettled s x target) : settledTarget s x = target := by
  obtain ⟨i, hx, ⟨ho, hid, hl⟩, rfl⟩ | ⟨hno, rfl⟩ := h
  · rw [settledTarget, hx]
    exact Option.filter_some_pos (by simp [ho, hid, hl])
  · rw [settledTarget, Option.filter_eq_none_iff]
    intro i hi hk
    simp only [Bool.and_eq_true, beq_iff_eq, and_assoc] at hk
    exact hno i hi hk

theorem TargetSettled.occupied {i : Index} (h : TargetSettled s x (some i)) :
    (entry s i).occupied = true := by
  obtain ⟨_, _, ⟨ho, _, _⟩, h⟩ | ⟨_, h⟩ := h
  · cases h
    exact ho
  · cases h

/-- The class chosen is the first of the priority order in the three sets (R77). -/
theorem chosenClass_eq_some_iff {p : Params} {cls : Cls} :
    chosenClass p x = some cls ↔ ClassChosen p x.classSet x.classCap cls := by
  constructor
  · intro h
    obtain ⟨n, hn, rfl⟩ := Option.map_eq_some_iff.1 h
    obtain ⟨hp, before, after, hl, hb⟩ := List.find?_eq_some_iff_append.1 hn
    have hlt : n < 8 := by
      by_contra hge
      simp [inClassSet, BitVec.getLsbD_of_ge x.classSet n (Nat.not_lt.1 hge)] at hp
    have hval : (Fin.ofNat 8 n).val = n := Nat.mod_eq_of_lt hlt
    refine ⟨before, after, ?_, ?_, fun m hm => ?_⟩
    · rw [hval, hl]
    · rw [hval]
      exact hp
    · simpa only [inClassSet, Bool.not_eq_true'] using hb m hm
  · rintro ⟨before, after, hl, hp, hb⟩
    refine Option.map_eq_some_iff.2 ⟨cls.val, ?_, Fin.ext (Nat.mod_eq_of_lt cls.isLt)⟩
    refine List.find?_eq_some_iff_append.2 ⟨hp, before, after, hl, fun m hm => ?_⟩
    rw [Bool.not_eq_true']
    exact hb m hm

theorem chosenClass_eq_none {p : Params} (h : ∀ cls, ¬ ClassChosen p x.classSet x.classCap cls) :
    chosenClass p x = none :=
  Option.eq_none_iff_forall_ne_some.2 fun cls hc => h cls (chosenClass_eq_some_iff.1 hc)

theorem addressFree_iff {a : Nat} : addressFree s a = true ↔ AddressUnheld s a := by
  rw [addressFree, Option.isNone_iff_eq_none, entryAt_none]

/-- A join without a target takes the hint, or the lowest free address of the grant range (R21). -/
theorem chosenAddress_eq_some_iff {hint a : Nat} :
    chosenAddress s none hint = some a ↔ AddressChosen s hint a := by
  have hcond : (hint ≠ 0 ∧ s.phase.params.grantLow ≤ hint ∧ hint ≤ s.phase.params.grantHigh
      ∧ addressFree s hint = true) ↔ hint ≠ 0 ∧ s.phase.params.grantLow ≤ hint
        ∧ hint ≤ s.phase.params.grantHigh ∧ AddressUnheld s hint := by
    rw [addressFree_iff]
  simp only [chosenAddress]
  split
  case isTrue h =>
    obtain ⟨h0, hfree⟩ := hcond.1 h
    refine ⟨fun ha => .inl ⟨h0, hfree, (Option.some.inj ha).symm⟩, ?_⟩
    rintro (⟨_, _, rfl⟩ | ⟨hnot, _⟩)
    · rfl
    · exact absurd ⟨h0, hfree⟩ hnot
  case isFalse h =>
    rw [List.find?_range_eq_some]
    simp only [Bool.and_eq_true, decide_eq_true_iff, addressFree_iff, List.mem_range,
      Bool.not_eq_true', Bool.and_eq_false_imp]
    constructor
    · rintro ⟨⟨hlow, hfree⟩, hhigh, hleast⟩
      refine .inr ⟨fun hh => h (hcond.2 hh), ⟨hlow, Nat.le_of_lt_succ hhigh, hfree⟩,
        fun b hb ⟨hb1, _, hb3⟩ => ?_⟩
      exact absurd (addressFree_iff.2 hb3) (by rw [hleast b hb hb1]; decide)
    · rintro (⟨h0, hfree, _⟩ | ⟨_, ⟨hlow, hhigh, hfree⟩, hleast⟩)
      · exact absurd (hcond.2 ⟨h0, hfree⟩) h
      · refine ⟨⟨hlow, hfree⟩, Nat.lt_succ_of_le hhigh, fun b hb hb1 => ?_⟩
        rw [← Bool.not_eq_true, addressFree_iff]
        exact fun hb3 => hleast b hb ⟨hb1, (Nat.le_of_lt hb).trans hhigh, hb3⟩

theorem AddressChosen.unheld {hint a : Nat} (h : AddressChosen s hint a) : AddressUnheld s a := by
  obtain ⟨_, ⟨_, _, hfree⟩, rfl⟩ | ⟨_, ⟨_, _, hfree⟩, _⟩ := h
  · exact hfree
  · exact hfree

theorem chosenAddress_target {i : Index} {hint a : Nat}
    (h : (target = some i ∧ (entry s i).address = some a)
      ∨ (target = none ∧ AddressChosen s hint a)) : chosenAddress s target hint = some a := by
  obtain ⟨rfl, ha⟩ | ⟨rfl, ha⟩ := h
  · exact ha
  · exact chosenAddress_eq_some_iff.2 ha

/-- The entry a join takes, the state in which it is taken, and the change that reserves it (R9). -/
theorem joinEntry_taken {i : Index} {advance : Word16} {causes : CauseSet}
    (h : EntryTaken s target i advance causes)
    (ho : target = some i → (entry s i).occupied = true) :
    ∃ u, joinEntry s target = some (i, u) ∧ (u = s ∨ u = released i s)
      ∧ ∀ new : Entry, new.state = .reserved → (entry s i).state ≠ .reserved →
          changeEntry i new (reserveCauses (entry u i)) u =
            withCauses i causes
              (withEntry i { new with generation := (entry s i).generation + advance } s) := by
  cases target with
  | some k =>
    obtain ⟨hk, rfl, rfl⟩ | ⟨hk, _⟩ | ⟨hk, _⟩ := h
    · cases hk
      have hoccupied : ¬ (entry s i).state = .free := Entry.occupied_iff.1 (ho rfl)
      refine ⟨s, rfl, .inl rfl, fun new hnew hs => ?_⟩
      rw [reserveCauses, if_neg hoccupied, changeEntry_state _ (by rw [hnew]; exact hs)]
    · cases hk
    · cases hk
  | none =>
    obtain ⟨u, hu, hframe, hfree, hchange⟩ := allocate_taken h
    refine ⟨u, hu, hframe, fun new hnew _ => ?_⟩
    rw [reserveCauses, if_pos hfree]
    exact hchange new (by rw [hnew]; decide)

/-- Whether another entry holds the address or the identity is told by the other entries (R16). -/
theorem heldByOther_taken {i : Index} {u : State} {a : Nat} {y : Identity}
    (hu : u = s ∨ u = released i s) :
    (addressHeldByOther u a i || identityHeldByOther u y i) = true ↔
      ∃ j, j ≠ i ∧ (entry s j).occupied = true
        ∧ ((entry s j).address = some a ∨ (entry s j).identity = some y) := by
  have hother : ∀ j, j ≠ i → entry u j = entry s j := by
    intro j hj
    obtain rfl | rfl := hu
    · rfl
    · rw [entry_released, if_neg hj]
  rw [← Bool.not_eq_false, Bool.or_eq_false_iff, addressHeldByOther_eq_false,
    identityHeldByOther_eq_false]
  constructor
  · intro h
    by_contra hnone
    refine h ⟨fun j hj ho ha => hnone ⟨j, hj, ?_⟩, fun j hj ho hy => hnone ⟨j, hj, ?_⟩⟩
    · rw [hother j hj] at ho ha
      exact ⟨ho, .inl ha⟩
    · rw [hother j hj] at ho hy
      exact ⟨ho, .inr hy⟩
  · rintro ⟨j, hj, ho, h⟩ ⟨ha, hy⟩
    rw [← hother j hj] at ho h
    obtain h | h := h
    · exact ha j hj ho h
    · exact hy j hj ho h

theorem Placed.alone {i : Index} {a hint : Nat} {y : Identity} (h : Placed s y hint target i a) :
    ¬ ∃ j, j ≠ i ∧ (entry s j).occupied = true
      ∧ ((entry s j).address = some a ∨ (entry s j).identity = some y) := by
  rintro ⟨j, hj, ho, hh⟩
  obtain ⟨_, ⟨_, _, hid⟩, ⟨_, _, haddr⟩⟩ | ⟨_, hid, haddr⟩ := h
  · obtain hh | hh := hh
    · exact hj (haddr j ho hh)
    · exact hj (hid j ho hh)
  · obtain hh | hh := hh
    · exact haddr.unheld j ho hh
    · exact hid j ho hh

theorem Placed.address {i : Index} {a hint : Nat} {y : Identity} (h : Placed s y hint target i a) :
    (target = some i ∧ (entry s i).address = some a) ∨ (target = none ∧ AddressChosen s hint a) := by
  obtain ⟨ht, _, ⟨_, ha, _⟩⟩ | ⟨ht, _, ha⟩ := h
  · exact .inl ⟨ht, ha⟩
  · exact .inr ⟨ht, ha⟩

end Steps

/-! ### The outcomes (R77 to R79) -/

section Outcomes

variable {s : State} {c : CtxNum} {x : Exchange} {target : Option Index} {cls : Cls} {a : Nat}
  {i : Index} {u : State}

/-- A refusal of the resolution closes the context, with the kind JOIN (log entry 9). -/
theorem resolution_refused {t : State} (r : Reason) (hx : context s c = some x)
    (ho : ∀ o, x.stage ≠ .offered o) (hj : t.join = s.join) :
    closeRefused c .join r t =
      send 254 (.refuse x.identity .join r)
        (count .refusals { t with join.contexts := s.join.contexts.set c none }) := by
  have hctx : context t c = some x := by
    rw [context, hj]
    exact hx
  rw [closeRefused_eq .join r hctx ho, hj]

theorem resolveTerms_noClass (hx : context s c = some x)
    (hc : chosenClass s.phase.params { x with target := settledTarget s x } = none) :
    resolveTerms c s = closeRefused c .join .noClass s := by
  simp only [resolveTerms, hx, hc]

theorem resolveTerms_noAddress (hx : context s c = some x)
    (hc : chosenClass s.phase.params { x with target := settledTarget s x } = some cls)
    (ha : chosenAddress s (settledTarget s x) x.hint = none) :
    resolveTerms c s = closeRefused c .join .noAddress s := by
  simp only [resolveTerms, hx, hc, ha]

theorem resolveTerms_full (hx : context s c = some x)
    (hc : chosenClass s.phase.params { x with target := settledTarget s x } = some cls)
    (ha : chosenAddress s (settledTarget s x) x.hint = some a)
    (hj : joinEntry s (settledTarget s x) = none) :
    resolveTerms c s = closeRefused c .join .tableFull (setPart partTableFull s) := by
  simp only [resolveTerms, hx, hc, ha, hj]

theorem resolveTerms_retry (hx : context s c = some x)
    (hc : chosenClass s.phase.params { x with target := settledTarget s x } = some cls)
    (ha : chosenAddress s (settledTarget s x) x.hint = some a)
    (hj : joinEntry s (settledTarget s x) = some (i, u))
    (hh : (addressHeldByOther u a i || identityHeldByOther u x.identity i) = true) :
    resolveTerms c s = closeRefused c .join .retry s := by
  simp only [resolveTerms, hx, hc, ha, hj, if_pos hh]

theorem resolveTerms_offers (hx : context s c = some x)
    (hc : chosenClass s.phase.params { x with target := settledTarget s x } = some cls)
    (ha : chosenAddress s (settledTarget s x) x.hint = some a)
    (hj : joinEntry s (settledTarget s x) = some (i, u))
    (hh : ¬ (addressHeldByOther u a i || identityHeldByOther u x.identity i) = true) :
    resolveTerms c s =
      reserveAndOffer c { x with target := settledTarget s x } i a cls
        (chosenWindow s.phase.params { x with target := settledTarget s x } cls)
        (clampLease s.phase.params x.requestedLease x.leaseCap) u := by
  simp only [resolveTerms, hx, hc, ha, hj, if_neg hh]

theorem chosenWindow_eq (p : Params) (x : Exchange) (cls : Cls) :
    chosenWindow p { x with target := target } cls = offeredWindow p x cls := by
  cases h : x.windowRequest with
  | none => simp only [chosenWindow, offeredWindow, h]
  | some w => simp only [chosenWindow, offeredWindow, h]

/-- Reserving the entry and offering it makes the offer of the terms of claims (R9, R79). -/
theorem reserveAndOffer_eq {advance : Word16} {causes : CauseSet} (hu : u = s ∨ u = released i s)
    (hchange : ∀ new : Entry, new.state = .reserved →
      changeEntry i new (reserveCauses (entry u i)) u =
        withCauses i causes
          (withEntry i { new with generation := (entry s i).generation + advance } s)) :
    reserveAndOffer c { x with target := target } i a cls (offeredWindow s.phase.params x cls)
        (clampLease s.phase.params x.requestedLease x.leaseCap) u =
      offerMade c x target i a cls advance causes s := by
  have hphase : u.phase = s.phase := by
    obtain rfl | rfl := hu <;> rfl
  have hnow : u.now = s.now := by
    obtain rfl | rfl := hu <;> rfl
  simp only [reserveAndOffer, hchange (reservedEntry _ _ _) rfl, termsAnswer, timerEnd, hphase, hnow]
  rfl

/-- Resolution from step 2 on makes an offer, where class, address and entry are found (R77 to R79). -/
theorem resolveTerms_offerMade {advance : Word16} {causes : CauseSet} (hx : context s c = some x)
    (ht : TargetSettled s x target) (hc : ClassChosen s.phase.params x.classSet x.classCap cls)
    (he : EntryTaken s target i advance causes) (hp : Placed s x.identity x.hint target i a)
    (hr : (entry s i).state ≠ .reserved) :
    resolveTerms c s = offerMade c x target i a cls advance causes s := by
  have hset := settledTarget_eq ht
  obtain ⟨u, hj, hu, hchange⟩ := joinEntry_taken he fun h => (h ▸ ht).occupied
  have halone : ¬ (addressHeldByOther u a i || identityHeldByOther u x.identity i) = true := fun h =>
    hp.alone ((heldByOther_taken hu).1 h)
  have hoffers := resolveTerms_offers hx (chosenClass_eq_some_iff.2 hc)
    (hset.symm ▸ chosenAddress_target hp.address) (hset.symm ▸ hj) halone
  rw [hoffers, hset, chosenWindow_eq]
  exact reserveAndOffer_eq hu fun new hnew => hchange new hnew hr

end Outcomes

/-- The first part of O47: from step 2 on, the class, the address and the entry in their order. -/
theorem resolution_from_step_two {s : State} {c : CtxNum} {x : Exchange} {target : Option Index}
    (hx : context s c = some x) (ho : ∀ o, x.stage ≠ .offered o) (ht : TargetSettled s x target) :
    let p := s.phase.params
    let refused (r : Reason) (t : State) : Prop :=
      resolveTerms c s =
        send 254 (.refuse x.identity .join r)
          (count .refusals { t with join.contexts := s.join.contexts.set c none })
    ((∀ cls, ¬ ClassChosen p x.classSet x.classCap cls) → refused .noClass s)
      ∧ ∀ cls, ClassChosen p x.classSet x.classCap cls →
          (target = none → (∀ a, ¬ AddressChosen s x.hint a) → refused .noAddress s)
            ∧ (∀ a, target = none → AddressChosen s x.hint a →
                (∀ i, (entry s i).state ≠ .free ∧ (entry s i).state ≠ .held) →
                  refused .tableFull (setPart partTableFull s))
            ∧ (∀ a i advance causes, EntryTaken s target i advance causes →
                (target = some i ∧ (entry s i).address = some a)
                    ∨ (target = none ∧ AddressChosen s x.hint a) →
                (∃ j, j ≠ i ∧ (entry s j).occupied ∧ ((entry s j).address = some a
                  ∨ (entry s j).identity = some x.identity)) →
                  refused .retry s)
            ∧ ∀ a i advance causes, EntryTaken s target i advance causes →
                Placed s x.identity x.hint target i a → (entry s i).state ≠ .reserved →
                  resolveTerms c s = offerMade c x target i a cls advance causes s := by
  have hset := settledTarget_eq ht
  refine ⟨fun hc => ?_, fun cls hc => ⟨fun htn ha => ?_, fun a htn ha hfull => ?_,
    fun a i advance causes he ha hh => ?_, fun a i advance causes he hp hr =>
      resolveTerms_offerMade hx ht hc he hp hr⟩⟩
  · rw [resolveTerms_noClass hx (chosenClass_eq_none hc)]
    exact resolution_refused .noClass hx ho rfl
  · have hnone : chosenAddress s (settledTarget s x) x.hint = none := by
      rw [hset, htn]
      exact Option.eq_none_iff_forall_ne_some.2 fun a h => ha a (chosenAddress_eq_some_iff.1 h)
    rw [resolveTerms_noAddress hx (chosenClass_eq_some_iff.2 hc) hnone]
    exact resolution_refused .noAddress hx ho rfl
  · have haddress : chosenAddress s (settledTarget s x) x.hint = some a := by
      rw [hset, htn]
      exact chosenAddress_eq_some_iff.2 ha
    have hnone : joinEntry s (settledTarget s x) = none := by
      rw [hset, htn]
      exact allocate_fails (fun j => (hfull j).1) fun j => (hfull j).2
    rw [resolveTerms_full hx (chosenClass_eq_some_iff.2 hc) haddress hnone]
    exact resolution_refused (t := setPart partTableFull s) .tableFull hx ho rfl
  · obtain ⟨u, hj, hu, _⟩ := joinEntry_taken he fun h => (h ▸ ht).occupied
    rw [resolveTerms_retry hx (chosenClass_eq_some_iff.2 hc) (hset.symm ▸ chosenAddress_target ha)
      (hset.symm ▸ hj) ((heldByOther_taken hu).2 hh)]
    exact resolution_refused .retry hx ho rfl

end Sys2Proof.Machine
end

section
/-! JOIN: its checks, the context it takes, and the offer made at once (spec/04.2, spec/04.4). -/

namespace Sys2Proof.Machine

-- One lemma is elaborated after another, which keeps the check's memory low.
set_option Elab.async false

/-! ### The checks (R64 to R66) -/

section Checks

variable {s : State} {r : Request} {rest : List Request} {c : CtxNum} {x : Exchange}

theorem exec_join (hf : Front s r rest) (hk : r.kind = .join) :
    exec .join s = .next (takeJoin r (popped rest s)) :=
  congrArg Host.Outcome.next (dispatch_front hf hk)

theorem joinContentOk_iff {p : List Byte} :
    joinContentOk p = true ↔
      p.length = 15 ∧ byteAt p 10 ≠ 0 ∧ (byteAt p 13).toNat ≤ 239 := by
  simp only [joinContentOk, Bool.and_eq_true, beq_iff_eq, bne_iff_ne, decide_eq_true_eq, and_assoc]
  rfl

theorem takeJoin_stranger (hr : r.source ≠ 254) :
    takeJoin r s = refuse 254 (readJoin r.payload).identity .join .malformed s := if_pos hr

theorem takeJoin_malformed (hr : r.source = 254) (hp : s.phase.phase ≠ .settling)
    (h : ¬ joinContentOk r.payload = true) :
    takeJoin r s = refuse 254 (readJoin r.payload).identity .join .malformed s := by
  have hsource : ¬ r.source ≠ Config.anonymous := not_not.2 hr
  simp only [takeJoin, if_neg hsource, if_neg hp, if_pos h]
  rfl

/-- A JOIN that no context of its identity meets goes on to the checks of R67. -/
theorem takeJoin_admitted (hr : r.source = 254) (hp : s.phase.phase ≠ .settling)
    (h : joinContentOk r.payload = true) (hn : NoContext s (readJoin r.payload).identity) :
    takeJoin r s = admitJoin (readJoin r.payload) s := by
  have hsource : ¬ r.source ≠ Config.anonymous := not_not.2 hr
  simp only [takeJoin, if_neg hsource, if_neg hp, if_neg (not_not.2 h), contextOf_none hn]

theorem takeJoin_repeated (hr : r.source = 254) (hp : s.phase.phase ≠ .settling)
    (h : joinContentOk r.payload = true) (hc : contextOf s (readJoin r.payload).identity = some c)
    (hx : context s c = some x) (hi : x.incarnation = (readJoin r.payload).incarnation) :
    takeJoin r s = repeatJoin x s := by
  have hsource : ¬ r.source ≠ Config.anonymous := not_not.2 hr
  simp only [takeJoin, if_neg hsource, if_neg hp, if_neg (not_not.2 h), hc, hx, if_pos hi]

theorem takeJoin_anew (hr : r.source = 254) (hp : s.phase.phase ≠ .settling)
    (h : joinContentOk r.payload = true) (hc : contextOf s (readJoin r.payload).identity = some c)
    (hx : context s c = some x) (hi : x.incarnation ≠ (readJoin r.payload).incarnation) :
    takeJoin r s = admitJoin (readJoin r.payload) (closeContext c s) := by
  have hsource : ¬ r.source ≠ Config.anonymous := not_not.2 hr
  simp only [takeJoin, if_neg hsource, if_neg hp, if_neg (not_not.2 h), hc, hx, if_neg hi]

theorem contextClosed_join (c : CtxNum) (x : Exchange) (s : State) :
    (contextClosed c x s).join = { s.join with contexts := s.join.contexts.set c none } := by
  simp only [contextClosed]
  cases x.stage <;> rfl

theorem contextClosed_phase (c : CtxNum) (x : Exchange) (s : State) :
    (contextClosed c x s).phase = s.phase := by
  simp only [contextClosed]
  cases x.stage <;> rfl

theorem contextClosed_port (c : CtxNum) (x : Exchange) (s : State) :
    (contextClosed c x s).port = s.port := by
  simp only [contextClosed]
  cases x.stage <;> rfl

theorem popped_contextClosed (rest : List Request) (c : CtxNum) (x : Exchange) (s : State) :
    popped rest (contextClosed c x s) = contextClosed c x (popped rest s) := by
  simp only [contextClosed]
  cases x.stage <;> rfl

/-- Once the one context of an identity is closed, no context holds it (R61). -/
theorem contextClosed_noContext (h : HoldsContext s c x) :
    NoContext (contextClosed c x s) x.identity := by
  intro d y hy hid
  have hctx : context (contextClosed c x s) d = if d = c then none else context s d := by
    rw [context, contextClosed_join]
    exact context_setContext c d none s
  rw [hctx] at hy
  split at hy
  case isTrue => cases hy
  case isFalse hne => exact hne (h.2.1 d y hy hid)

/-- A JOIN of another incarnation is handled as if its context had been closed before (R66). -/
theorem exec_join_anew (hf : Front s r rest) (hk : r.kind = .join) (hr : r.source = 254)
    (hp : s.phase.phase ≠ .settling) (h : joinContentOk r.payload = true) (hc : HoldsContext s c x)
    (hid : x.identity = (readJoin r.payload).identity)
    (hi : x.incarnation ≠ (readJoin r.payload).incarnation) :
    exec .join s = exec .join (contextClosed c x s) := by
  have hfront : Front (contextClosed c x s) r rest := by
    rw [Front, contextClosed_port]
    exact hf
  have hphase : (contextClosed c x (popped rest s)).phase.phase ≠ .settling := by
    rw [contextClosed_phase]
    exact hp
  have hfound : contextOf (popped rest s) (readJoin r.payload).identity = some c := by
    rw [← hid]
    exact contextOf_holds hc
  have hnone : NoContext (contextClosed c x (popped rest s)) (readJoin r.payload).identity := by
    rw [← hid]
    exact contextClosed_noContext (s := popped rest s) hc
  rw [exec_join hf hk, exec_join hfront hk, popped_contextClosed,
    takeJoin_anew (s := popped rest s) hr hp h hfound hc.1 hi, takeJoin_admitted hr hphase h hnone,
    closeContext_holds (t := popped rest s) hc rfl rfl]

theorem repeatJoin_collecting {d : Nat} (hs : x.stage = .collecting d) :
    repeatJoin x s = send 254 (.noted x.identity 0) s := by
  simp only [repeatJoin, hs]
  rfl

theorem repeatJoin_checking (hc : x.checking = true) : repeatJoin x s = s := by
  rw [Exchange.checking] at hc
  rw [repeatJoin]
  cases hs : x.stage with
  | collecting d => simp [hs] at hc
  | checking n t => rfl
  | offered o => simp [hs] at hc

theorem repeatJoin_offered {o : Offer} (hs : x.stage = .offered o) :
    repeatJoin x s = send 254 (termsAnswer s x o) s := by
  simp only [repeatJoin, hs]
  rfl

end Checks

/-! ### Admission and the entry of the identity (R67 to R70) -/

section Admission

variable {s : State} {j : JoinFields} {caps : Caps} {i : Index}

theorem admitJoin_static (hi : HoldsIdentity s i j.identity) (ho : (entry s i).origin = some .static) :
    admitJoin j s = grantStatic j.identity i s := by
  have hstatic : (entryOf s j.identity).filter (fun i => (entry s i).origin == some .static) =
      some i := by
    rw [entryOf_holds hi]
    exact Option.filter_some_pos (by simp [ho])
  simp only [admitJoin, hstatic]

theorem notStatic_filter (h : ∀ i, (entry s i).occupied = true →
      (entry s i).identity = some j.identity → (entry s i).origin ≠ some .static) :
    (entryOf s j.identity).filter (fun i => (entry s i).origin == some .static) = none := by
  rw [Option.filter_eq_none_iff]
  intro i hi ho
  obtain ⟨hocc, hid⟩ := entryOf_some hi
  exact h i hocc hid (by simpa using ho)

theorem admitJoin_refused (h : ∀ i, (entry s i).occupied = true →
      (entry s i).identity = some j.identity → (entry s i).origin ≠ some .static)
    (hv : verdict s j.identity = none) :
    admitJoin j s = refuse 254 j.identity .join .admission s := by
  simp only [admitJoin, notStatic_filter h, hv]
  rfl

theorem admitJoin_admitted (h : ∀ i, (entry s i).occupied = true →
      (entry s i).identity = some j.identity → (entry s i).origin ≠ some .static)
    (hv : verdict s j.identity = some caps) : admitJoin j s = joinMeetsEntry j caps s := by
  simp only [admitJoin, notStatic_filter h, hv]

theorem joinMeetsEntry_duplicate (hi : HoldsIdentity s i j.identity) (hl : (entry s i).live = true)
    (hd : (entry s i).dispute.duplicate = true) :
    joinMeetsEntry j caps s = refuse 254 j.identity .join .duplicate s := by
  simp only [joinMeetsEntry, entryOf_holds hi, if_pos hl, if_pos hd]
  rfl

theorem joinMeetsEntry_renewed (hi : HoldsIdentity s i j.identity) (hl : (entry s i).live = true)
    (hd : (entry s i).dispute.duplicate = false)
    (hinc : (entry s i).incarnation = some j.incarnation) (hm : j.more = false) :
    joinMeetsEntry j caps s = grantExisting j.identity i j.lease s := by
  have hsingle : ¬ (entry s i).dispute.duplicate = true := by rw [hd]; decide
  have hlast : ¬ j.more = true := by rw [hm]; decide
  simp only [joinMeetsEntry, entryOf_holds hi, if_pos hl, if_neg hsingle, if_pos hinc, if_neg hlast]

/-- A JOIN whose handling goes on has the target of check 6 (R69). -/
theorem joinMeetsEntry_target {target : Option Index} {probe : Bool}
    (h : JoinTarget s j target probe) :
    joinMeetsEntry j caps s = needContext j caps target probe s := by
  obtain ⟨hu, rfl, rfl⟩ | ⟨i, hi, rfl, hcase⟩ := h
  · simp only [joinMeetsEntry, entryOf_unheld hu]
  · obtain ⟨hs, rfl⟩ | ⟨hl, hd, hcase⟩ := hcase
    · have hdead : ¬ (entry s i).live = true := fun hl => (live_states hl).2.1 hs
      simp only [joinMeetsEntry, entryOf_holds hi, if_neg hdead]
    · have hsingle : ¬ (entry s i).dispute.duplicate = true := by rw [hd]; decide
      obtain ⟨hinc, hm, rfl⟩ | ⟨hinc, rfl⟩ := hcase
      · simp only [joinMeetsEntry, entryOf_holds hi, if_pos hl, if_neg hsingle, if_pos hinc, if_pos hm]
      · simp only [joinMeetsEntry, entryOf_holds hi, if_pos hl, if_neg hsingle, if_neg hinc]

theorem grantAnswer_eq {e : Entry} {a : Nat} {t : Terms} (y : Identity) (lease : Nat)
    (ha : e.address = some a) (ht : e.terms = some t) :
    grantAnswer s y e lease =
      .grant y a t.cls t.window lease s.phase.params.tickPeriod e.generation := by
  rw [grantAnswer, ha, ht]
  rfl

/-- The terms of a live entry are granted again, renewed with the clamped lease (R70). -/
theorem grantExisting_eq {a requested : Nat} {t : Terms} (y : Identity)
    (hl : (entry s i).live = true) (ha : (entry s i).address = some a)
    (ht : (entry s i).terms = some t) :
    grantExisting y i requested s =
      send 254
        (.grant y a t.cls t.window (clampLease s.phase.params requested none)
          s.phase.params.tickPeriod
          (if (entry s i).state = .lapsing then (entry s i).generation + 1
            else (entry s i).generation))
        (count .grants (renewEntry i (clampLease s.phase.params requested none) s)) := by
  simp only [grantExisting]
  rw [renewEntry_eq hl, entry_changed_same]
  exact congrArg (fun m => send 254 m (count .grants _)) (grantAnswer_eq y _ ha ht)

end Admission

/-! ### The context (R58, R71) -/

section Context

variable {s : State} {j : JoinFields} {caps : Caps} {target : Option Index} {probe : Bool} {c : CtxNum}

theorem needContext_suspended (hp : s.phase.phase = .suspended) :
    needContext j caps target probe s = refuse 254 j.identity .join .suspended s := if_pos hp

theorem needContext_heldOff (hp : s.phase.phase ≠ .suspended) (h : ∀ c, context s c ≠ none) :
    needContext j caps target probe s = holdoff j.identity s := by
  have hnone : lowestIdle s = none := by
    rw [lowestIdle, List.find?_eq_none]
    exact fun c _ hc => h c (Option.isNone_iff_eq_none.1 hc)
  simp only [needContext, if_neg hp, hnone]

theorem needContext_taken (hp : s.phase.phase ≠ .suspended)
    (h : Lowest (fun d => context s d = none) c) :
    needContext j caps target probe s = takeContext c j caps target probe s := by
  simp only [needContext, if_neg hp, lowestIdle_eq.2 h]

theorem takeContext_eq :
    takeContext c j caps target probe s =
      if j.more then send 254 (.noted j.identity 0) (contextTaken c j caps target probe s)
      else resolve c (contextTaken c j caps target probe s) := by
  simp only [takeContext, dropDeferral_eq]
  rfl

end Context

/-- Settles O46: a JOIN's fields, and then its checks in their order. -/
theorem joinTakesContext : Obligations.JoinTakesContext := by
  intro s r rest hf hk
  refine ⟨⟨rfl, rfl, rfl, fun h => Nat.min_eq_left h, fun h => Nat.min_eq_right h.le, rfl, rfl⟩,
    fun hr => ?_, fun hr hp hs => ?_, fun hr hp hs => ?_⟩
  · rw [exec_join hf hk, takeJoin_stranger hr]
    rfl
  · rw [exec_join hf hk, takeJoin_malformed (s := popped rest s) hr hp fun h => hs (joinContentOk_iff.1 h)]
    rfl
  · have hok := joinContentOk_iff.2 hs
    refine ⟨fun c x hc hid => ⟨fun hi => ?_, exec_join_anew hf hk hr hp hok hc hid⟩, fun hn => ?_⟩
    · have hfound : contextOf (popped rest s) (readJoin r.payload).identity = some c := by
        rw [← hid]
        exact contextOf_holds hc
      rw [exec_join hf hk, takeJoin_repeated (s := popped rest s) hr hp hok hfound hc.1 hi, ← hid]
      refine ⟨fun d hst => ?_, fun hst => ?_, fun o hst => ?_⟩
      · rw [repeatJoin_collecting hst]
      · rw [repeatJoin_checking hst]
      · rw [repeatJoin_offered hst]
        rfl
    · rw [exec_join hf hk, takeJoin_admitted (s := popped rest s) hr hp hok hn]
      refine ⟨fun i e a t hi he ho ha ht => ?_, fun hns => ⟨fun hv => ?_, fun caps hv => ?_⟩⟩
      · subst he
        rw [admitJoin_static (s := popped rest s) hi ho, grantStatic,
          grantAnswer_eq (s := popped rest s) (e := entry (popped rest s) i) _ 0 ha ht]
        rfl
      · rw [admitJoin_refused (s := popped rest s) hns hv]
        rfl
      · rw [admitJoin_admitted (s := popped rest s) hns hv]
        refine ⟨fun i e hi he hl => ⟨fun hd => ?_, fun a t hd hinc hm ha ht => ?_⟩,
          fun target probe ht => ?_⟩
        · subst he
          rw [joinMeetsEntry_duplicate (s := popped rest s) hi hl hd]
          rfl
        · subst he
          rw [joinMeetsEntry_renewed (s := popped rest s) hi hl hd hinc hm,
            grantExisting_eq (s := popped rest s) _ hl ha ht, renewEntry_eq (s := popped rest s) hl]
          rfl
        · rw [joinMeetsEntry_target (s := popped rest s) ht]
          refine ⟨fun hsus => ?_, fun hact hall => ?_, fun c hact hlow => ?_⟩
          · rw [needContext_suspended (s := popped rest s) hsus]
            rfl
          · rw [needContext_heldOff (s := popped rest s) 
              (fun h => by cases hact.symm.trans h) hall]
          · rw [needContext_taken (s := popped rest s) 
              (fun h => by cases hact.symm.trans h) hlow, takeContext_eq]
            exact ⟨fun hm => by rw [if_pos hm], fun hm => by rw [hm]; rfl⟩

/-! ### An offer at once (R71, R75 to R79) -/

section AtOnce

variable {s : State} {c : CtxNum} {x : Exchange} {target : Option Index}

/-- Without a probe to make, resolution goes on at step 2 (R76). -/
theorem resolve_unprobed (hx : context s c = some x) (hp : probeTarget s x = none) :
    resolve c s = resolveTerms c s := by
  simp only [resolve, hx, hp]

theorem probeTarget_unneeded (hp : x.probeNeeded = false) : probeTarget s x = none := by
  rw [probeTarget]
  split
  · rfl
  · rw [hp, Bool.false_and, Bool.false_and, if_neg (by decide)]

/-- The target of a join that is resolved at once is none, or a HELD leased entry of the identity. -/
def AtOnceTarget (s : State) (y : Identity) (target : Option Index) : Prop :=
  (target = none ∧ IdentityUnheld s y)
    ∨ ∃ i, target = some i ∧ HoldsIdentity s i y ∧ (entry s i).state = .held
        ∧ (entry s i).leased = true

theorem Placed.atOnceTarget {i : Index} {a hint : Nat} {y : Identity}
    (h : Placed s y hint target i a)
    (ht : ∀ k, target = some k → (entry s k).state = .held ∧ (entry s k).leased = true) :
    AtOnceTarget s y target := by
  obtain ⟨htarget, hid, _⟩ | ⟨htarget, hid, _⟩ := h
  · exact .inr ⟨i, htarget, hid, ht i htarget⟩
  · exact .inl ⟨htarget, hid⟩

theorem AtOnceTarget.joinTarget {j : JoinFields} (h : AtOnceTarget s j.identity target) :
    JoinTarget s j target false := by
  obtain ⟨ht, hu⟩ | ⟨i, ht, hi, hs, _⟩ := h
  · exact .inl ⟨hu, ht, rfl⟩
  · exact .inr ⟨i, hi, ht, .inl ⟨hs, rfl⟩⟩

theorem AtOnceTarget.notStatic {y : Identity} (h : AtOnceTarget s y target) (k : Index)
    (ho : (entry s k).occupied = true) (hid : (entry s k).identity = some y) :
    (entry s k).origin ≠ some .static := by
  obtain ⟨_, hu⟩ | ⟨i, _, ⟨_, _, hunique⟩, _, hl⟩ := h
  · exact absurd hid (hu k ho)
  · obtain rfl := hunique k ho hid
    intro hs
    rw [leased_iff, hs] at hl
    revert hl
    decide

theorem AtOnceTarget.settled (h : AtOnceTarget s x.identity target) (hx : x.target = target) :
    TargetSettled s x target := by
  obtain ⟨rfl, _⟩ | ⟨i, rfl, ⟨ho, hid, _⟩, _, hl⟩ := h
  · exact .inr ⟨fun i hi => (by cases hi.symm.trans hx), rfl⟩
  · exact .inl ⟨i, hx, ⟨ho, hid, hl⟩, rfl⟩

theorem EntryTaken.not_reserved {i : Index} {advance : Word16} {causes : CauseSet}
    (h : EntryTaken s target i advance causes)
    (ht : ∀ k, target = some k → (entry s k).state = .held ∧ (entry s k).leased = true) :
    (entry s i).state ≠ .reserved := by
  intro hr
  obtain ⟨htarget, _⟩ | ⟨_, hi, _⟩ | ⟨_, _, hi, _⟩ := h
  · cases (ht i htarget).1.symm.trans hr
  · cases hi.1.symm.trans hr
  · cases hi.held.symm.trans hr

end AtOnce

/-- Settles O47: resolution from step 2 on, and the JOIN that is resolved at once. -/
theorem joinOffersTerms : Obligations.JoinOffersTerms := by
  refine ⟨fun s c x target hx ho ht => resolution_from_step_two hx ho ht, ?_⟩
  intro s r rest c caps target i a cls advance causes hf hk hr hp hok j hn hv hlow hm htarget hplaced
    htaken hclass
  have hsettling : (popped rest s).phase.phase ≠ .settling := fun h => by cases hp.symm.trans h
  have hsuspended : (popped rest s).phase.phase ≠ .suspended := fun h => by cases hp.symm.trans h
  have honce := hplaced.atOnceTarget htarget
  have hmore : ¬ j.more = true := by rw [hm]; decide
  rw [exec_join hf hk, takeJoin_admitted hr hsettling hok hn,
    admitJoin_admitted (s := popped rest s) honce.notStatic hv,
    joinMeetsEntry_target (s := popped rest s) honce.joinTarget, needContext_taken hsuspended hlow,
    takeContext_eq, if_neg hmore]
  have htakenContext : contextTaken c j caps target false (popped rest s) =
      { popped rest s with
        join.contexts := s.join.contexts.set c
          (some (newExchange j caps target false
            (.collecting (s.now + s.phase.params.pageTimeout * 10000))))
        admission.deferrals := s.admission.deferrals.filter (fun d => d.identity ≠ j.identity)
        change := (count .joins s).change } := count_of_change rfl
  have hcounted : count .joins
      { popped rest s with
        admission.deferrals := s.admission.deferrals.filter (fun d => d.identity ≠ j.identity) } =
      { popped rest s with
        admission.deferrals := s.admission.deferrals.filter (fun d => d.identity ≠ j.identity)
        change := (count .joins s).change } := count_of_change rfl
  rw [htakenContext, hcounted]
  generalize (count .joins s).change = u
  have hctx := context_setContext c c
    (some (newExchange j caps target false
      (.collecting (s.now + s.phase.params.pageTimeout * 10000)))) s
  rw [if_pos rfl] at hctx
  refine congrArg Host.Outcome.next
    ((resolve_unprobed (by exact hctx) (probeTarget_unneeded rfl)).trans
      ((resolveTerms_offerMade (target := target) (by exact hctx)
        (AtOnceTarget.settled (by exact honce) rfl) (by exact hclass) (by exact htaken)
        (by exact hplaced) (by exact htaken.not_reserved htarget)).trans ?_))
  simp only [offerMade, Vector.set_set]
  rfl

end Sys2Proof.Machine
end

section
/-! EXTEND, AGREE and REPLY against the contexts and the probes (spec/04.3, spec/04.5, spec/05.2). -/

namespace Sys2Proof.Machine

-- One lemma is elaborated after another, which keeps the check's memory low.
set_option Elab.async false

/-! ### The pages of an EXTEND (R72) -/

section Pages

variable {p : List Byte}

theorem readPage_length (h : p.length ≠ 12 + (byteAt p 11).toNat) : readPage p = none := if_pos h

theorem readPage_groups (hl : p.length = 12 + (byteAt p 11).toNat) (hk : byteAt p 10 = 1) :
    readPage p =
      if (decide ((byteAt p 11).toNat ≤ 4) && groupsValid ((p.drop 12).map BitVec.toNat)) = true then
        some (.groups ((p.drop 12).map BitVec.toNat))
      else none := by
  have hkind : (byteAt p 10).toNat = 1 := by rw [hk]; rfl
  simp only [readPage, if_neg (not_not.2 hl), hkind]

theorem readPage_window (hl : p.length = 12 + (byteAt p 11).toNat) (hk : byteAt p 10 = 2) :
    readPage p =
      if (byteAt p 11).toNat = 1 ∧ 1 ≤ (byteAt p 12).toNat ∧ (byteAt p 12).toNat ≤ 64 then
        some (.window (byteAt p 12).toNat)
      else none := by
  have hkind : (byteAt p 10).toNat = 2 := by rw [hk]; rfl
  simp only [readPage, if_neg (not_not.2 hl), hkind]

theorem readPage_label (hl : p.length = 12 + (byteAt p 11).toNat) (hk : byteAt p 10 = 3) :
    readPage p =
      if 1 ≤ (byteAt p 11).toNat ∧ (byteAt p 11).toNat ≤ 12 ∧ charsValid (p.drop 12) = true then
        some (.label (p.drop 12))
      else none := by
  have hkind : (byteAt p 10).toNat = 3 := by rw [hk]; rfl
  simp only [readPage, if_neg (not_not.2 hl), hkind]

/-- A page is of one of three kinds, in a payload of its length. -/
theorem readPage_some {g : Page} (h : readPage p = some g) :
    p.length = 12 + (byteAt p 11).toNat
      ∧ (byteAt p 10 = 1 ∨ byteAt p 10 = 2 ∨ byteAt p 10 = 3) := by
  by_cases hl : p.length = 12 + (byteAt p 11).toNat
  · refine ⟨hl, ?_⟩
    simp only [readPage, if_neg (not_not.2 hl)] at h
    split at h
    case h_1 hk => exact .inl (BitVec.eq_of_toNat_eq hk)
    case h_2 hk => exact .inr (.inl (BitVec.eq_of_toNat_eq hk))
    case h_3 hk => exact .inr (.inr (BitVec.eq_of_toNat_eq hk))
    case h_4 => cases h
  · rw [readPage_length hl] at h
    cases h

theorem readPage_groups_iff {l : List Nat} :
    readPage p = some (.groups l) ↔
      (p.length = 12 + (byteAt p 11).toNat ∧ byteAt p 10 = 1) ∧ (byteAt p 11).toNat ≤ 4
        ∧ (∀ b ∈ p.drop 12, b.toNat ≤ 13) ∧ (p.drop 12).Nodup
        ∧ l = (p.drop 12).map BitVec.toNat := by
  constructor
  · intro h
    obtain ⟨hl, hk | hk | hk⟩ := readPage_some h
    · rw [readPage_groups hl hk, Option.ite_none_right_eq_some, Bool.and_eq_true, decide_eq_true_iff,
        groupsValid_bytes, Option.some.injEq, Page.groups.injEq] at h
      obtain ⟨⟨hn, hg, hd⟩, hlist⟩ := h
      exact ⟨⟨hl, hk⟩, hn, hg, hd, hlist.symm⟩
    · rw [readPage_window hl hk, Option.ite_none_right_eq_some] at h
      cases h.2
    · rw [readPage_label hl hk, Option.ite_none_right_eq_some] at h
      cases h.2
  · rintro ⟨⟨hl, hk⟩, hn, hg, hd, rfl⟩
    rw [readPage_groups hl hk, if_pos]
    rw [Bool.and_eq_true, decide_eq_true_iff, groupsValid_bytes]
    exact ⟨hn, hg, hd⟩

theorem readPage_window_iff {w : Nat} :
    readPage p = some (.window w) ↔
      (p.length = 12 + (byteAt p 11).toNat ∧ byteAt p 10 = 2) ∧ (byteAt p 11).toNat = 1 ∧ 1 ≤ w
        ∧ w ≤ 64 ∧ w = (byteAt p 12).toNat := by
  constructor
  · intro h
    obtain ⟨hl, hk | hk | hk⟩ := readPage_some h
    · rw [readPage_groups hl hk, Option.ite_none_right_eq_some] at h
      cases h.2
    · rw [readPage_window hl hk, Option.ite_none_right_eq_some, Option.some.injEq,
        Page.window.injEq] at h
      obtain ⟨⟨hn, h1, h64⟩, rfl⟩ := h
      exact ⟨⟨hl, hk⟩, hn, h1, h64, rfl⟩
    · rw [readPage_label hl hk, Option.ite_none_right_eq_some] at h
      cases h.2
  · rintro ⟨⟨hl, hk⟩, hn, h1, h64, rfl⟩
    rw [readPage_window hl hk, if_pos ⟨hn, h1, h64⟩]

theorem readPage_label_iff {l : List Byte} :
    readPage p = some (.label l) ↔
      (p.length = 12 + (byteAt p 11).toNat ∧ byteAt p 10 = 3) ∧ 1 ≤ (byteAt p 11).toNat
        ∧ (byteAt p 11).toNat ≤ 12 ∧ (∀ b ∈ p.drop 12, 0x20 ≤ b.toNat ∧ b.toNat ≤ 0x7E)
        ∧ l = p.drop 12 := by
  constructor
  · intro h
    obtain ⟨hl, hk | hk | hk⟩ := readPage_some h
    · rw [readPage_groups hl hk, Option.ite_none_right_eq_some] at h
      cases h.2
    · rw [readPage_window hl hk, Option.ite_none_right_eq_some] at h
      cases h.2
    · rw [readPage_label hl hk, Option.ite_none_right_eq_some, Option.some.injEq,
        Page.label.injEq, charsValid_iff] at h
      obtain ⟨⟨h1, h12, hc⟩, rfl⟩ := h
      exact ⟨⟨hl, hk⟩, h1, h12, hc, rfl⟩
  · rintro ⟨⟨hl, hk⟩, h1, h12, hc, rfl⟩
    rw [readPage_label hl hk, if_pos ⟨h1, h12, charsValid_iff.2 hc⟩]

end Pages

theorem flagAt_iff {p : List Byte} {k : Nat} : flagAt p k = true ↔ byteAt p k ≠ 0 := bne_iff_ne

/-! ### EXTEND (R73, R74) -/

section Extend

variable {s : State} {r : Request} {rest : List Request} {c : CtxNum} {x : Exchange} {p : List Byte}

theorem exec_extend (hf : Front s r rest) (hk : r.kind = .extend) :
    exec .extend s = .next (takeExtend r (popped rest s)) :=
  congrArg Host.Outcome.next (dispatch_front hf hk)

theorem takeExtend_malformed (h : r.source ≠ 254 ∨ r.payload.length < 12) :
    takeExtend r s = refuse 254 (payloadIdentity r.payload) .extend .malformed s := by
  by_cases hs : r.source ≠ Config.anonymous
  · simp only [takeExtend, if_pos hs]
    rfl
  · have hl : r.payload.length < 12 := h.resolve_left hs
    simp only [takeExtend, if_neg hs, if_pos hl]
    rfl

theorem takeExtend_unmet (hr : r.source = 254) (hl : 12 ≤ r.payload.length)
    (hn : NoContext s (payloadIdentity r.payload)) :
    takeExtend r s = refuse 254 (payloadIdentity r.payload) .extend .sequence s := by
  have hs : ¬ r.source ≠ Config.anonymous := not_not.2 hr
  simp only [takeExtend, if_neg hs, if_neg (Nat.not_lt.2 hl), contextOf_none hn]
  rfl

theorem takeExtend_met (hr : r.source = 254) (hl : 12 ≤ r.payload.length)
    (hc : contextOf s (payloadIdentity r.payload) = some c) (hx : context s c = some x) :
    takeExtend r s = extendContext c x r.payload s := by
  have hs : ¬ r.source ≠ Config.anonymous := not_not.2 hr
  simp only [takeExtend, if_neg hs, if_neg (Nat.not_lt.2 hl), hc, hx]

theorem extendContext_next {d : Nat} (hs : x.stage = .collecting d)
    (ht : (byteAt p 8).toNat = x.lastTurn + 1) :
    extendContext c x p s = newPage c x (byteAt p 8).toNat (flagAt p 9) (readPage p) s := by
  simp only [extendContext, hs, if_pos ht]

theorem extendContext_again {d : Nat} (hs : x.stage = .collecting d)
    (ht : (byteAt p 8).toNat = x.lastTurn) :
    extendContext c x p s = send 254 (.noted x.identity (byteAt p 8).toNat) s := by
  have hne : ¬ (byteAt p 8).toNat = x.lastTurn + 1 := by omega
  simp only [extendContext, hs, if_neg hne, if_pos ht]
  rfl

/-- An EXTEND of a turn that its context does not expect closes the context (R73, R74). -/
theorem extendContext_sequence (ht : (byteAt p 8).toNat ≠ x.lastTurn)
    (hn : (∃ d, x.stage = .collecting d) → (byteAt p 8).toNat ≠ x.lastTurn + 1) :
    extendContext c x p s = closeRefused c .extend .sequence s := by
  cases hs : x.stage with
  | collecting d => simp only [extendContext, hs, if_neg (hn ⟨d, hs⟩), if_neg ht]
  | checking n t => simp only [extendContext, hs, if_neg ht]
  | offered o => simp only [extendContext, hs, if_neg ht]

theorem extendContext_checking (hc : x.checking = true) (ht : (byteAt p 8).toNat = x.lastTurn) :
    extendContext c x p s = s := by
  rw [Exchange.checking] at hc
  cases hs : x.stage with
  | collecting d => simp [hs] at hc
  | checking n t => simp only [extendContext, hs, if_pos ht]
  | offered o => simp [hs] at hc

theorem extendContext_offered {o : Offer} (hs : x.stage = .offered o)
    (ht : (byteAt p 8).toNat = x.lastTurn) :
    extendContext c x p s = send 254 (termsAnswer s x o) s := by
  simp only [extendContext, hs, if_pos ht]
  rfl

theorem newPage_bad {turn : Nat} {more : Bool} :
    newPage c x turn more none s = closeRefused c .extend .malformed s := rfl

theorem newPage_seventh {turn : Nat} {more : Bool} {g : Page} (h : x.pagesTaken = 6) :
    newPage c x turn more (some g) s = closeRefused c .extend .pages s := if_pos h

theorem newPage_taken {turn : Nat} {more : Bool} {g : Page} (h : x.pagesTaken ≠ 6) :
    newPage c x turn more (some g) s =
      let taken := send 254 (.noted x.identity turn)
        { s with
          join.contexts := s.join.contexts.set c
            (some { x.takePage g with
              pagesTaken := x.pagesTaken + 1, lastTurn := turn,
              stage := .collecting (s.now + s.phase.params.pageTimeout * 10000) }) }
      if more then taken else resolve c taken := if_neg h

theorem checking_not_collecting (hc : x.checking = true) : ¬ ∃ d, x.stage = .collecting d := by
  rintro ⟨d, hs⟩
  rw [Exchange.checking, hs] at hc
  cases hc

end Extend

/-- Settles O48: the pages, the EXTEND that no context meets, and the context's stage and turn. -/
theorem extendTakesPage : Obligations.ExtendTakesPage := by
  intro s r rest hf hk
  rw [exec_extend hf hk]
  refine ⟨fun l => readPage_groups_iff, fun w => readPage_window_iff, fun l => readPage_label_iff,
    fun h => ?_, fun hr hl hn => ?_, fun c x hr hl hc hid => ?_⟩
  · rw [takeExtend_malformed h]
    rfl
  · rw [takeExtend_unmet (s := popped rest s) hr hl hn]
    rfl
  · have hfound : contextOf (popped rest s) (payloadIdentity r.payload) = some c := by
      rw [← hid]
      exact contextOf_holds hc
    have hclosed : ∀ reason, closeRefused c .extend reason (popped rest s) =
        send 254 (.refuse (payloadIdentity r.payload) .extend reason)
          (count .refusals (contextClosed c x (popped rest s))) := fun reason => by
      rw [← hid]
      exact closeRefused_holds .extend reason hc rfl rfl
    rw [takeExtend_met (s := popped rest s) hr hl hfound hc.1]
    refine ⟨fun d hst => ⟨fun g ht hg hn => ?_, fun ht hg => ?_, fun ht hg hn => ?_, fun ht => ?_,
      fun ht hn => ?_⟩, fun hst => ⟨fun ht => ?_, fun ht => ?_⟩, fun o hst => ⟨fun ht => ?_, fun ht => ?_⟩⟩
    · rw [extendContext_next hst ht, hg, newPage_taken hn, ← hid]
      refine ⟨fun hm => ?_, fun hm => ?_⟩
      · rw [flagAt_iff.2 hm]
        cases g <;> rfl
      · rw [Bool.eq_false_iff.2 fun h => hm (flagAt_iff.1 h)]
        cases g <;> rfl
    · rw [extendContext_next hst ht, hg, newPage_bad, hclosed]
    · obtain ⟨g, hg⟩ := Option.ne_none_iff_exists'.1 hg
      rw [extendContext_next hst ht, hg, newPage_seventh hn, hclosed]
    · rw [extendContext_again hst ht, hid]
    · rw [extendContext_sequence ht fun _ => hn, hclosed]
    · rw [extendContext_checking hst ht]
    · rw [extendContext_sequence ht fun h => absurd h (checking_not_collecting hst), hclosed]
    · rw [extendContext_offered hst ht, termsAnswer, hid]
      rfl
    · rw [extendContext_sequence ht (by rintro ⟨d, hd⟩; cases hst.symm.trans hd), hclosed]

/-! ### AGREE (R80, R81) -/

section Agree

variable {s : State} {r : Request} {rest : List Request} {c : CtxNum} {x : Exchange} {o : Offer}
  {p : List Byte} {y : Identity} {i : Index}

theorem exec_agree (hf : Front s r rest) (hk : r.kind = .agree) :
    exec .agree s = .next (takeAgree r (popped rest s)) :=
  congrArg Host.Outcome.next (dispatch_front hf hk)

theorem takeAgree_malformed
    (h : r.source ≠ 254 ∨ r.payload.length ≠ 11 ∨ 7 < (byteAt r.payload 10).toNat) :
    takeAgree r s = refuse 254 (payloadIdentity r.payload) .agree .malformed s := by
  by_cases hs : r.source ≠ Config.anonymous
  · simp only [takeAgree, if_pos hs]
    rfl
  · simp only [takeAgree, if_neg hs, if_pos (h.resolve_left hs)]
    rfl

theorem agreeInOrder (hl : r.payload.length = 11) (hc : (byteAt r.payload 10).toNat ≤ 7) :
    ¬ (r.payload.length ≠ 11 ∨ 7 < (byteAt r.payload 10).toNat) := by omega

theorem takeAgree_late (hr : r.source = 254) (hl : r.payload.length = 11)
    (hc : (byteAt r.payload 10).toNat ≤ 7) (hn : NoContext s (payloadIdentity r.payload)) :
    takeAgree r s = lateAgree (payloadIdentity r.payload) r.payload s := by
  have hs : ¬ r.source ≠ Config.anonymous := not_not.2 hr
  simp only [takeAgree, if_neg hs, if_neg (agreeInOrder hl hc), contextOf_none hn]

theorem takeAgree_offered (hr : r.source = 254) (hl : r.payload.length = 11)
    (hc : (byteAt r.payload 10).toNat ≤ 7)
    (hfound : contextOf s (payloadIdentity r.payload) = some c) (hx : context s c = some x)
    (hst : x.stage = .offered o) : takeAgree r s = judgeAgree c x o r.payload s := by
  have hs : ¬ r.source ≠ Config.anonymous := not_not.2 hr
  simp only [takeAgree, if_neg hs, if_neg (agreeInOrder hl hc), hfound, hx, hst]

theorem takeAgree_unoffered (hr : r.source = 254) (hl : r.payload.length = 11)
    (hc : (byteAt r.payload 10).toNat ≤ 7)
    (hfound : contextOf s (payloadIdentity r.payload) = some c) (hx : context s c = some x)
    (hst : ∀ o, x.stage ≠ .offered o) :
    takeAgree r s = closeRefused c .agree .sequence s := by
  have hs : ¬ r.source ≠ Config.anonymous := not_not.2 hr
  cases hstage : x.stage with
  | collecting d =>
    simp only [takeAgree, if_neg hs, if_neg (agreeInOrder hl hc), hfound, hx, hstage]
  | checking n t =>
    simp only [takeAgree, if_neg hs, if_neg (agreeInOrder hl hc), hfound, hx, hstage]
  | offered o => exact absurd hstage (hst o)

theorem judgeAgree_declined (h : ¬ byteAt p 9 ≠ 0) :
    judgeAgree c x o p s = send 254 (.closed x.identity) (closeContext c s) :=
  if_pos fun hf => h (flagAt_iff.1 hf)

theorem judgeAgree_sequence (h : byteAt p 9 ≠ 0) (ht : (byteAt p 8).toNat ≠ o.turn) :
    judgeAgree c x o p s = closeRefused c .agree .sequence s := by
  simp only [judgeAgree, if_neg (not_not.2 (flagAt_iff.2 h)), if_pos ht]

theorem judgeAgree_malformed (h : byteAt p 9 ≠ 0) (ht : (byteAt p 8).toNat = o.turn)
    (hc : (byteAt p 10).toNat ≠ o.cls.val) :
    judgeAgree c x o p s = closeRefused c .agree .malformed s := by
  simp only [judgeAgree, if_neg (not_not.2 (flagAt_iff.2 h)), if_neg (not_not.2 ht), if_pos hc]

theorem judgeAgree_bound (h : byteAt p 9 ≠ 0) (ht : (byteAt p 8).toNat = o.turn)
    (hc : (byteAt p 10).toNat = o.cls.val) :
    judgeAgree c x o p s = bindOffer c x o s := by
  simp only [judgeAgree, if_neg (not_not.2 (flagAt_iff.2 h)), if_neg (not_not.2 ht),
    if_neg (not_not.2 hc)]

/-- The bind of an offer whose entry is RESERVED (R10). -/
theorem bindOffer_eq (hr : (entry s o.entry).state = .reserved) :
    bindOffer c x o s =
      send 254
        (.grant x.identity o.address o.cls o.window o.lease s.phase.params.tickPeriod
          ((entry s o.entry).generation + 1))
        (count .grants
          { withCauses o.entry causeState
              (withEntry o.entry
                { entry s o.entry with
                  state := .bound, origin := some .negotiated,
                  generation := (entry s o.entry).generation + 1,
                  lease := some o.lease, remaining := some o.lease } s) with
            join.contexts := s.join.contexts.set c none }) := by
  have hchange : changeEntry o.entry (boundEntry (entry s o.entry) o.lease) causeState s =
      withCauses o.entry causeState
        (withEntry o.entry
          { boundEntry (entry s o.entry) o.lease with
            generation := (entry s o.entry).generation + 1 } s) :=
    changeEntry_state causeState (by rw [hr]; exact nofun)
  simp only [bindOffer, if_pos hr, hchange, entry_changed_same]
  rfl

/-- The entry of the identity that an AGREE without a context may be granted again (R81). -/
def Standing (e : Entry) (n : Nat) : Prop :=
  e.state = .bound ∧ e.origin = some .negotiated ∧ ∃ t, e.terms = some t ∧ t.cls.val = n

theorem standing_iff {e : Entry} {n : Nat} :
    (flagAt p 9 && e.state == .bound && e.origin == some .negotiated
        && e.terms.any (fun t => t.cls.val == n)) = true ↔
      byteAt p 9 ≠ 0 ∧ Standing e n := by
  simp only [Bool.and_eq_true, flagAt_iff, beq_iff_eq, Option.any_eq_true, and_assoc, Standing]

theorem lateAgree_granted (hi : HoldsIdentity s i y) (ha : byteAt p 9 ≠ 0)
    (hs : Standing (entry s i) (byteAt p 10).toNat) :
    lateAgree y p s = send 254 (grantAnswer s y (entry s i) (orZero (entry s i).lease)) s := by
  simp only [lateAgree, entryOf_holds hi, if_pos (standing_iff.2 ⟨ha, hs⟩)]
  rfl

theorem lateAgree_refused
    (h : ¬ byteAt p 9 ≠ 0 ∨ IdentityUnheld s y
      ∨ ∃ i, HoldsIdentity s i y ∧ ¬ Standing (entry s i) (byteAt p 10).toNat) :
    lateAgree y p s = refuse 254 y .agree .sequence s := by
  cases hi : entryOf s y with
  | none =>
    simp only [lateAgree, hi]
    rfl
  | some i =>
    have hnot : ¬ (flagAt p 9 && (entry s i).state == .bound && (entry s i).origin == some .negotiated
        && (entry s i).terms.any (fun t => t.cls.val == (byteAt p 10).toNat)) = true := by
      rw [standing_iff]
      rintro ⟨ha, hs⟩
      obtain h | h | ⟨k, hk, h⟩ := h
      · exact h ha
      · rw [entryOf_unheld h] at hi
        cases hi
      · obtain rfl : k = i := Option.some.inj ((entryOf_holds hk).symm.trans hi)
        exact h hs
    simp only [lateAgree, hi, if_neg hnot]
    rfl

end Agree

/-- Settles O49: the AGREE's form, its context by stage, answer, turn and class, and no context. -/
theorem agreeBindsOrDeclines : Obligations.AgreeBindsOrDeclines := by
  intro s r rest hf hk
  rw [exec_agree hf hk]
  refine ⟨fun h => ?_, fun hr hl hcls => ⟨fun c x hc hid => ?_, fun hn => ⟨fun i e a t l hi he hacc hs ha ht hlease => ?_,
    fun h => ?_⟩⟩⟩
  · rw [takeAgree_malformed h]
    rfl
  · have hfound : contextOf (popped rest s) (payloadIdentity r.payload) = some c := by
      rw [← hid]
      exact contextOf_holds hc
    have hclosed : ∀ reason, closeRefused c .agree reason (popped rest s) =
        send 254 (.refuse (payloadIdentity r.payload) .agree reason)
          (count .refusals (contextClosed c x (popped rest s))) := fun reason => by
      rw [← hid]
      exact closeRefused_holds .agree reason hc rfl rfl
    refine ⟨fun hst => ?_, fun o e hst he => ⟨fun hacc ht hclass => ?_, fun hacc => ?_, fun hacc ht => ?_,
      fun hacc ht hclass => ?_⟩⟩
    · rw [takeAgree_unoffered (s := popped rest s) hr hl hcls hfound hc.1 hst, hclosed]
    all_goals rw [takeAgree_offered (s := popped rest s) hr hl hcls hfound hc.1 hst]
    · subst he
      rw [judgeAgree_bound hacc ht hclass, bindOffer_eq (s := popped rest s) (hc.2.2 o hst), hid]
      rfl
    · rw [judgeAgree_declined hacc, closeContext_holds (t := popped rest s) hc rfl rfl, hid]
    · rw [judgeAgree_sequence hacc ht, hclosed]
    · rw [judgeAgree_malformed hacc ht hclass, hclosed]
  · subst he
    rw [takeAgree_late (s := popped rest s) hr hl hcls hn,
      lateAgree_granted (s := popped rest s) hi hacc hs,
      grantAnswer_eq (s := popped rest s) (e := entry (popped rest s) i) _ _ ha ht]
    rw [show (entry (popped rest s) i).lease = some l from hlease]
    rfl
  · rw [takeAgree_late (s := popped rest s) hr hl hcls hn, lateAgree_refused (s := popped rest s) h]
    rfl

/-! ### REPLY (R97 to R101) -/

section Reply

variable {s : State} {r : Request} {rest : List Request} {c : CtxNum} {x : Exchange} {i : Index}
  {p : List Byte} {target : Option Index}

theorem exec_reply (hf : Front s r rest) (hk : r.kind = .reply) :
    exec .reply s = .next (takeReply r (popped rest s)) :=
  congrArg Host.Outcome.next (dispatch_front hf hk)

theorem takeReply_unheld (hu : AddressUnheld s r.source) : takeReply r s = count .strays s := by
  simp only [takeReply, entryAt_unheld hu]

theorem takeReply_unprobed (hi : HoldsAddress s i r.source) (hp : Unprobed s i) :
    takeReply r s = count .strays (noteLateReply i r.payload s) := by
  simp only [takeReply, entryAt_holds hi, probing_none hp]

theorem takeReply_probed (hi : HoldsAddress s i r.source) (hp : ProbedBy s i c)
    (hx : context s c = some x) : takeReply r s = judgeReply i c x r.payload s := by
  simp only [takeReply, entryAt_holds hi, probing_only hp, hx]

/-- The holder answers, or a third station of the identity: DUPLICATE (R98). -/
theorem judgeReply_duplicate (hs : (entry s i).identity = some (payloadIdentity p))
    (h : (entry s i).incarnation = some (word16At p 8) ∨ ¬ x.incarnation = word16At p 8) :
    judgeReply i c x p s = probeDuplicate i c s := by
  by_cases ho : (entry s i).incarnation = some (word16At p 8)
  · simp only [judgeReply, if_neg (not_not.2 hs), if_pos ho]
  · simp only [judgeReply, if_neg (not_not.2 hs), if_neg ho, if_neg (h.resolve_left ho)]

theorem judgeReply_same (hs : (entry s i).identity = some (payloadIdentity p))
    (ho : ¬ (entry s i).incarnation = some (word16At p 8)) (hx : x.incarnation = word16At p 8) :
    judgeReply i c x p s = resolveTerms c s := by
  simp only [judgeReply, if_neg (not_not.2 hs), if_neg ho, if_pos hx]

theorem judgeReply_stranger (hs : ¬ (entry s i).identity = some (payloadIdentity p)) :
    judgeReply i c x p s = replyStranger i c x s := if_pos hs

theorem addDuplicate_eq (hl : (entry s i).live = true) (hd : (entry s i).dispute.duplicate = false) :
    addDuplicate i s =
      withCauses i causeDispute
        (withEntry i
          { entry s i with
            generation := (entry s i).generation + 1
            dispute := { (entry s i).dispute with duplicate := true } } s) := by
  have htracked : (entry s i).tracked ≠
      Entry.tracked { entry s i with dispute := { (entry s i).dispute with duplicate := true } } := by
    intro h
    have hflag := congrArg (fun e => e.dispute.duplicate) h
    simp [Entry.tracked, hd] at hflag
  have hnew : ¬ ((entry s i).dispute.duplicate || !(entry s i).live) = true := by
    rw [hd, hl]
    decide
  simp only [addDuplicate, if_neg hnew]
  exact changeEntry_tracked _ htracked

theorem closeContext_checking (hx : context s c = some x) (hc : x.checking = true) :
    closeContext c s = setContext c none s := by
  rw [Exchange.checking] at hc
  cases hs : x.stage with
  | collecting d => simp [hs] at hc
  | checking n t => simp only [closeContext, hx, hs]
  | offered o => simp [hs] at hc

/-- A context becomes IDLE in a state whose contexts are as before. -/
theorem setContext_of_join {u : State} {y : Option Exchange} (hj : u.join = s.join) :
    setContext c y u = { u with join.contexts := s.join.contexts.set c y } := by
  simp [setContext, hj]

theorem collided_join (i : Index) (s : State) : (collided i s).join = s.join := count_join _ _

theorem resolve_probes {a : Nat} (hx : context s c = some x) (ht : TargetSettled s x (some i))
    (hp : x.probeNeeded = true ∧ (entry s i).live = true
      ∧ (entry s i).incarnation ≠ some x.incarnation) (ha : (entry s i).address = some a) :
    resolve c s = sendCheck c { x with target := some i } 0 a s := by
  obtain ⟨hneeded, hlive, hinc⟩ := hp
  have hprobe : probeTarget s x = some (i, a) := by
    have hall : (x.probeNeeded && (entry s i).live
        && (entry s i).incarnation != some x.incarnation) = true := by
      rw [hneeded, hlive, Bool.true_and, Bool.true_and, bne_iff_ne]
      exact hinc
    simp only [probeTarget, settledTarget_eq ht, if_pos hall, ha, Option.map_some]
  simp only [resolve, hx, hprobe]

theorem probeTarget_none (ht : TargetSettled s x target)
    (h : ∀ i, target = some i → ¬ (x.probeNeeded = true ∧ (entry s i).live = true
      ∧ (entry s i).incarnation ≠ some x.incarnation)) : probeTarget s x = none := by
  cases htarget : target with
  | none => simp only [probeTarget, settledTarget_eq ht, htarget]
  | some i =>
    have hnot : ¬ (x.probeNeeded && (entry s i).live
        && (entry s i).incarnation != some x.incarnation) = true := by
      simpa only [Bool.and_eq_true, bne_iff_ne, and_assoc] using h i htarget
    simp only [probeTarget, settledTarget_eq ht, htarget, if_neg hnot]

end Reply

/-- Settles O50: whether resolution probes, and the REPLY by the probe at its source address. -/
theorem replyDecidesProbe : Obligations.ReplyDecidesProbe := by
  refine ⟨fun s c x target hx ht => ⟨fun i a hi hp ha => ?_, fun h => ?_⟩, fun s r rest hf hk => ?_⟩
  · rw [resolve_probes hx (hi ▸ ht) hp ha]
    rfl
  · exact resolve_unprobed hx (probeTarget_none ht h)
  rw [exec_reply hf hk]
  refine ⟨fun c x i e hi hx hp he hl => ?_, fun hu => ?_, fun i hi hp => ⟨fun late hlost => ?_, fun hno => ?_⟩⟩
  · subst he
    obtain ⟨⟨z, hz, hchecking, _⟩, _⟩ := id hp
    obtain rfl : z = x := Option.some.inj (hz.symm.trans hx)
    rw [takeReply_probed (s := popped rest s) hi hp hx]
    refine ⟨fun hs ho hd => ⟨Config.closingKind s.freeUsed, ?_⟩, fun hs ho hj => ?_, fun hs => ?_⟩
    · rw [judgeReply_duplicate (s := popped rest s) hs ho, probeDuplicate,
        addDuplicate_eq (s := popped rest s) hl hd]
      exact congrArg Host.Outcome.next (closeDuplicate_checking (s := s) rfl rfl hx hchecking)
    · rw [judgeReply_same (s := popped rest s) hs ho hj]
    · rw [judgeReply_stranger (s := popped rest s) hs, replyStranger,
        addCollision_eq (s := popped rest s) hl]
      have hjoin : (if (entry (popped rest s) i).dispute.collision then popped rest s
          else collided i (popped rest s)).join = s.join := by
        split
        · rfl
        · exact collided_join i (popped rest s)
      have hctx : context (if (entry (popped rest s) i).dispute.collision then popped rest s
          else collided i (popped rest s)) c = some z := by
        rw [context, hjoin]
        exact hx
      rw [closeContext_checking hctx hchecking, setContext_of_join hjoin]
      rfl
  · rw [takeReply_unheld (s := popped rest s) hu]
  · rw [takeReply_unprobed (s := popped rest s) hi hp]
    obtain ⟨_, hno⟩ | ⟨_, _, h⟩ := noteLateReply_cases i r.payload (popped rest s)
    · exact absurd hlost (hno late)
    · rw [h]
      rfl
  · rw [takeReply_unprobed (s := popped rest s) hi hp]
    obtain ⟨h, _⟩ | ⟨late, hlost, _⟩ := noteLateReply_cases i r.payload (popped rest s)
    · rw [h]
    · exact absurd hlost (hno late)

end Sys2Proof.Machine
end

section
/-! CONFIGURE and RESUME (spec/08): the tests of R148 on the settings, the parameters after they are
applied, and the command in each case; and STATUS (spec/10), its word field by field (R166). -/

namespace Sys2Proof.Machine

-- One lemma is elaborated after another, which keeps the check's memory low.
set_option Elab.async false

/-! ### The value of a setting (R148, R186) -/

theorem beNat_lt (bytes : List Byte) : beNat bytes < 256 ^ bytes.length := by
  induction bytes with
  | nil => simp [beNat]
  | cons b rest ih =>
    have hb : b.toNat + 1 ≤ 256 := b.isLt
    calc beNat (b :: rest) = b.toNat * 256 ^ rest.length + beNat rest := beNat_cons b rest
      _ < (b.toNat + 1) * 256 ^ rest.length := by rw [Nat.succ_mul]; omega
      _ ≤ 256 * 256 ^ rest.length := Nat.mul_le_mul_right _ hb
      _ = 256 ^ (b :: rest).length := by rw [List.length_cons, Nat.pow_succ, Nat.mul_comm]

theorem natAt_lt (bytes : List Byte) (k n : Nat) : natAt bytes k n < 256 ^ n :=
  (beNat_lt _).trans_le (Nat.pow_le_pow_right (by decide) (List.length_take_le _ _))

theorem readSettings_value_lt {p : List Byte} {x : Setting} (hx : x ∈ readSettings p) :
    x.value < 256 ^ 4 := by
  obtain ⟨k, _, rfl⟩ := List.mem_map.1 hx
  exact natAt_lt p (5 * k + 1) 4

/-- The eight digits of a four-byte value spell it again. -/
theorem priorityValue_priorityOf {v : Nat} (h : v < 256 ^ 4) : priorityValue (priorityOf v) = v := by
  have hrange : List.range 8 = [0, 1, 2, 3, 4, 5, 6, 7] := rfl
  simp only [priorityValue, priorityOf, hrange, List.map_cons, List.map_nil, List.foldl_cons,
    List.foldl_nil]
  omega

/-- A parameter set to a four-byte value in its range has that value. -/
theorem Params.get_put_of_lt {p : Params} {v : Nat} {k : Param} (h : Param.inRange v k = true)
    (hv : v < 256 ^ 4) : (p.put v k).get k = v := by
  by_cases hk : k = .priority
  · subst hk
    exact priorityValue_priorityOf hv
  · exact Params.get_put h hk

/-! ### The parameters after the settings are applied (R148) -/

section Applied

variable {p : Params} {l : List Setting} {k : Param}

theorem applySettings_get_unnamed (h : ∀ x ∈ l, x.param ≠ some k) :
    (applySettings p l).get k = p.get k := by
  induction l generalizing p with
  | nil => rfl
  | cons x l ih =>
    rw [applySettings_cons, ih fun y hy => h y (List.mem_cons_of_mem x hy)]
    obtain ⟨_, hq⟩ | ⟨j, hj, hq⟩ := applySetting_cases p x
    · rw [hq]
    · have hne : k ≠ j := by
        rintro rfl
        exact h x List.mem_cons_self hj
      rw [hq, Params.get_put_ne hne]

/-- The one setting that names a parameter gives it its value: those after it name others. -/
theorem applySettings_get_named {x : Setting} (hnodup : (l.map Setting.param).Nodup) (hx : x ∈ l)
    (hk : x.param = some k) (hrange : Param.inRange x.value k = true) (hv : x.value < 256 ^ 4) :
    (applySettings p l).get k = x.value := by
  induction l generalizing p with
  | nil => exact absurd hx List.not_mem_nil
  | cons y l ih =>
    rw [List.map_cons, List.nodup_cons] at hnodup
    obtain ⟨hfresh, hnodup⟩ := hnodup
    rw [applySettings_cons]
    obtain rfl | hx := List.mem_cons.1 hx
    · have hput : applySetting p x = p.put x.value k := by simp only [applySetting, hk]
      have hothers : ∀ z ∈ l, z.param ≠ some k := fun z hz hzk =>
        hfresh (List.mem_map.2 ⟨z, hz, hzk.trans hk.symm⟩)
      rw [applySettings_get_unnamed hothers, hput, Params.get_put_of_lt hrange hv]
    · exact ih hnodup hx

end Applied

/-! ### The three tests (R148) -/

section Tests

variable {s : State} {p : Params} {l : List Setting}

theorem badNames_eq_false_iff :
    badNames l = false ↔ (∀ x ∈ l, x.param ≠ none) ∧ (l.map Setting.param).Nodup := by
  simp [badNames]

theorem badPhase_eq_false_iff :
    badPhase s l = false ↔
      s.phase.phase = .offline ∨ ∀ x ∈ l, ∀ k, x.param = some k → k.offlineOnly = false := by
  by_cases h : s.phase.phase = .offline <;> simp [badPhase, Option.any_eq_false, h]

theorem badValues_eq_false_iff :
    badValues p l = false ↔
      (∀ x ∈ l, ∀ k, x.param = some k → Param.inRange x.value k = true)
        ∧ (applySettings p l).grantLow ≤ (applySettings p l).grantHigh
        ∧ (applySettings p l).minLease ≤ (applySettings p l).maxLease := by
  simp [badValues, Option.any_eq_false, and_assoc]

end Tests

/-! ### CONFIGURE by its tests (R148) -/

section Configure

variable {f : CommandFrame} {s : State}

theorem exec_configure (hs : Ready s) (hf : Framed 0x01 f)
    (hl : lengthSuits 0x01 f.params.length = true) :
    exec (.configure f) s = .next (configure f.params (accept f s)) := by
  rw [← lengthSuits_configure] at hl
  have hsize : 5 ≤ f.params.length ∧ f.params.length ≤ 45 :=
    of_decide_eq_true (Bool.and_eq_true_iff.1 hl).2
  exact congrArg Host.Outcome.next (takeCommand_taken hs hf hl (by omega))

theorem configure_badNames (hn : badNames (readSettings f.params) = true) :
    configure f.params (accept f s) = completed f .range [] s s := by
  rw [← finish_accept]
  exact if_pos hn

theorem configure_badPhase (hn : badNames (readSettings f.params) = false)
    (hp : badPhase s (readSettings f.params) = true) :
    configure f.params (accept f s) = completed f .phase [] s s := by
  have hp' : badPhase (accept f s) (readSettings f.params) = true := hp
  simp only [configure, hn, hp', if_true, Bool.false_eq_true, if_false, finish_accept]

theorem configure_badValues (hn : badNames (readSettings f.params) = false)
    (hp : badPhase s (readSettings f.params) = false)
    (hv : badValues s.phase.params (readSettings f.params) = true) :
    configure f.params (accept f s) = completed f .range [] s s := by
  have hp' : badPhase (accept f s) (readSettings f.params) = false := hp
  simp only [configure, hn, hp', accept_phase, hv, if_true, Bool.false_eq_true, if_false,
    finish_accept]

/-- A CONFIGURE that passes applies its settings; a new bus rate alone touches the quiet bit times, whose
count is carried over (R133). -/
theorem configure_applies (hn : badNames (readSettings f.params) = false)
    (hp : badPhase s (readSettings f.params) = false)
    (hv : badValues s.phase.params (readSettings f.params) = false) :
    ∃ q c, configure f.params (accept f s) =
        completed f .ok [] s
          { s with
            phase.params := applySettings s.phase.params (readSettings f.params)
            port.quietFrom := q, port.quietCarried := c }
      ∧ ((applySettings s.phase.params (readSettings f.params)).busRate = s.phase.params.busRate →
          q = s.port.quietFrom ∧ c = s.port.quietCarried) := by
  have hp' : badPhase (accept f s) (readSettings f.params) = false := hp
  have hv' : badValues (accept f s).phase.params (readSettings f.params) = false := hv
  simp only [configure, hn, hp', hv', Bool.false_eq_true, if_false]
  split
  next => exact ⟨s.port.quietFrom, s.port.quietCarried, rfl, fun _ => ⟨rfl, rfl⟩⟩
  next hrate => exact ⟨s.now, quietBits (accept f s), rfl, fun h => absurd h hrate⟩

end Configure

/-- Settles O17: each test in its order, and the settings applied where all three are passed. -/
theorem configureAppliesAllOrNone : Obligations.ConfigureAppliesAllOrNone := by
  intro f s hs hf hl
  rw [exec_configure hs hf hl]
  simp only [← badNames_eq_false_iff, ← badPhase_eq_false_iff, ← badValues_eq_false_iff,
    Bool.not_eq_false]
  refine ⟨fun hn => ?_, fun hn hp => ?_, fun hn hp hv => ?_, fun hn hp hv => ?_⟩
  · rw [configure_badNames hn]
  · rw [configure_badPhase hn hp]
  · rw [configure_badValues hn hp hv]
  · obtain ⟨q, c, happlied, hquiet⟩ := configure_applies hn hp hv
    obtain ⟨_, hnodup⟩ := badNames_eq_false_iff.1 hn
    obtain ⟨hranges, _⟩ := badValues_eq_false_iff.1 hv
    exact ⟨_, q, c, congrArg Host.Outcome.next happlied,
      fun x hx k hk =>
        applySettings_get_named hnodup hx hk (hranges x hx k hk) (readSettings_value_lt hx),
      fun _ hother => applySettings_get_unnamed hother, hquiet⟩

/-! ### RESUME (R141) -/

section Resume

variable {f : CommandFrame} {s : State}

theorem exec_resume (hs : Ready s) (hf : Framed 0x06 f) (hp : f.params = []) :
    exec (.resume f) s = .next (resume (accept f s)) :=
  congrArg Host.Outcome.next (takeCommand_taken hs hf (by simp [hp]) (by simp [hp]))

theorem resume_to_active (h : s.phase.phase = .suspended) :
    resume (accept f s) =
      completed f .ok [2] s
        { s with
          phase.phase := .active
          change.partCauses := s.change.partCauses ||| partPhase } := by
  rw [resume, accept_phase, if_pos h]
  rfl

theorem resume_refused (h : s.phase.phase ≠ .suspended) :
    resume (accept f s) = completed f .phase [] s s := by
  rw [resume, accept_phase, if_neg h, finish_accept]

end Resume

/-- Settles O19: the return from SUSPENDED, and the refusal elsewhere. -/
theorem resumeReturnsToActive : Obligations.ResumeReturnsToActive := by
  intro f s hs hf hp
  rw [exec_resume hs hf hp]
  exact ⟨fun h => by rw [resume_to_active h], fun h => by rw [resume_refused h]⟩

/-! ### The status word field by field (R166) -/

/-- Every field of the word stands apart from the others: the word is their sum. -/
theorem statusWord_toNat (s : State) :
    (statusWord s).toNat =
      s.phase.phase.code + 4 * s.host.engine.code + 16 * (interruptCondition s).toNat
        + 32 * (aliveView s).toNat + 64 * s.host.rejected.toNat + 128 * s.host.resultLost.toNat := by
  have hphase := s.phase.phase.code_lt
  have hengine := s.host.engine.code_lt
  have hcondition := (interruptCondition s).toNat_le
  have halive := (aliveView s).toNat_le
  have hrejected := s.host.rejected.toNat_le
  have hlost := s.host.resultLost.toNat_le
  simp only [statusWord, flagBit_eq_mul, BitVec.toNat_ofNat]
  omega

/-- The fields of the word, read off by its weights; the bits but the interrupt's, which
`statusWord_interrupt` reads, by theirs. -/
theorem statusWord_fields (s : State) :
    (statusWord s).toNat % 4 = s.phase.phase.code
      ∧ (statusWord s).toNat / 4 % 4 = s.host.engine.code
      ∧ (statusWord s).toNat / 2 ^ 5 % 2 = (aliveView s).toNat
      ∧ (statusWord s).toNat / 2 ^ 6 % 2 = s.host.rejected.toNat
      ∧ (statusWord s).toNat / 2 ^ 7 % 2 = s.host.resultLost.toNat := by
  have hword := statusWord_toNat s
  have hphase := s.phase.phase.code_lt
  have hengine := s.host.engine.code_lt
  have hcondition := (interruptCondition s).toNat_le
  have halive := (aliveView s).toNat_le
  have hrejected := s.host.rejected.toNat_le
  have hlost := s.host.resultLost.toNat_le
  omega

theorem getLsbD_eq_of_div_mod {w : Byte} {n : Nat} {b : Bool} (h : w.toNat / 2 ^ n % 2 = b.toNat) :
    w.getLsbD n = b := by
  rw [← BitVec.testBit_toNat, Nat.testBit_eq_decide_div_mod_eq, h]
  cases b <;> rfl

/-- Settles O40: the state in which STATUS is taken, and the word's six fields. -/
theorem statusReportsAndClears : Obligations.StatusReportsAndClears := by
  intro s hs
  obtain ⟨hphase, hengine, halive, hrejected, hlost⟩ := statusWord_fields s
  exact ⟨statusWord s, exec_status hs, hphase, hengine, statusWord_interrupt s,
    getLsbD_eq_of_div_mod halive, getLsbD_eq_of_div_mod hrejected, getLsbD_eq_of_div_mod hlost⟩

end Sys2Proof.Machine
end
